-- ==== Sys2Proof/Word.lean ====
section
/-! DEFINITION. The plain value types of the Morse timing core: bytes, ticks and the closed sets of names the spec gives
(00_scope.md §5, 30_encoding.md R45–R48). -/

namespace Sys2Proof

/-- One serial byte (20_memory.md R35: an indivisible 8-bit unit). -/
abbrev Byte := BitVec 8

/-- A tick value. The width TW is a parameter of the block (R5), so a tick is held as its unsigned value;
every tick a register holds is below 2^TW (`Machine.State.Inv`, log entry 3). -/
abbrev Tick := Nat

/-- Dot and Dash, "the two atomic Morse signal durations" (00_scope.md glossary). -/
inductive DotDash where
  | dot
  | dash
deriving DecidableEq, Repr, Inhabited

/-- The edge of a debounced button event (00_scope.md glossary, ButtonEvent). -/
inductive Edge where
  | pressed
  | released
deriving DecidableEq, Repr, Inhabited

/-- ButtonEvent: "edge: Pressed | Released, at: Tick" (00_scope.md glossary; R61 carries at = now). -/
structure ButtonEvent where
  edge : Edge
  tick : Tick
deriving DecidableEq, Repr, Inhabited

/-- The classifier's result (R45). The codes 6 and 7 are never produced, so they have no constructor. -/
inductive ClassCode where
  | intraChar
  | dot
  | dash
  | charGap
  | wordGap
  | noise
deriving DecidableEq, Repr, Inhabited

/-- The kind of a gap marker (R47). -/
inductive GapKind where
  | charGap
  | wordGap
deriving DecidableEq, Repr, Inhabited

/-- The kind of a received character (R48): a letter of the decode table, or no match. -/
inductive RxCharKind where
  | letter
  | unknown
deriving DecidableEq, Repr, Inhabited

/-- The least number of bits that hold every value below `n`: `ceil(log2 n)` (R7). -/
def bitsFor (n : Nat) : Nat := Nat.clog 2 n

end Sys2Proof
end

