-- ==== Sys2Proof/Syntax.lean ====
section
/-! DEFINITION. The operations of the block: one constructor per row of spec/opcode_table.json, in its order. Only the
`RX_*` commands have an encoding (30_encoding.md R42, R52); the others are selected by the step (Machine/Sequencer.lean). -/

namespace Sys2Proof

/-- The operations of the block (30_encoding.md R52). -/
inductive Instr where
  /-- RX_DOT, byte 0x2E `'.'` (R80). -/
  | rxDot
  /-- RX_DASH, byte 0x2D `'-'` (R80). -/
  | rxDash
  /-- RX_CHAR_END, byte 0x43 `'C'` (R81). -/
  | rxCharEnd
  /-- RX_CHAR_END, byte 0x63 `'c'` (R81). -/
  | rxCharEndLower
  /-- RX_HARD_CHAR_FLUSH, byte 0x48 `'H'` (R82). -/
  | rxHardCharFlush
  /-- RX_WORD_END, byte 0x57 `'W'` (R83). -/
  | rxWordEnd
  /-- RX_WORD_END, byte 0x77 `'w'` (R83). -/
  | rxWordEndLower
  /-- RX_SOFT_WORD_FLUSH, byte 0x4F `'O'` (R84). -/
  | rxSoftWordFlush
  /-- RX_IGNORE, any byte R42 does not list (R85). -/
  | rxIgnore (b : Byte)
  /-- RESET (R104). -/
  | reset
  /-- TX_HOLD (R66). -/
  | txHold
  /-- SYNC_EMIT (R67). -/
  | syncEmit
  /-- GAP_EVAL (R69). -/
  | gapEval
  /-- DEBOUNCE_SAMPLE (R61). -/
  | debounceSample
  /-- EV_PRESSED (R70). -/
  | evPressed
  /-- EV_RELEASED (R71). -/
  | evReleased
  /-- DISCARD (R72). -/
  | discard
  /-- CLASSIFY_SIGNAL of a duration of `d` whole milliseconds (R54). -/
  | classifySignal (d : Nat)
  /-- CLASSIFY_GAP of a gap of `g` whole milliseconds (R55). -/
  | classifyGap (g : Nat)
  /-- CHAR_TIMEOUT (R78). -/
  | charTimeout
  /-- WORD_TIMEOUT (R79). -/
  | wordTimeout
  /-- TX_DOT, the output byte 0x2E: EMIT_SYMBOL(DOT) (R68). -/
  | txDot
  /-- TX_DASH, the output byte 0x2D: EMIT_SYMBOL(DASH) (R68). -/
  | txDash
deriving DecidableEq, Repr

end Sys2Proof
end

