-- ==== Sys2Proof/Decode.lean ====
section
/-! DEFINITION. The received command byte (30_encoding.md R42, R43): decoding, total on every byte, and the encoder. -/

namespace Sys2Proof

/-- The command a received byte selects, by exact match of the whole byte (R42). No byte is illegal: every byte R42 does
not list is RX_IGNORE (R43). -/
def decodeByte (b : Byte) : Instr :=
  if b = 0x2E then .rxDot
  else if b = 0x2D then .rxDash
  else if b = 0x43 then .rxCharEnd
  else if b = 0x63 then .rxCharEndLower
  else if b = 0x48 then .rxHardCharFlush
  else if b = 0x57 then .rxWordEnd
  else if b = 0x77 then .rxWordEndLower
  else if b = 0x4F then .rxSoftWordFlush
  else .rxIgnore b

/-- Why a byte string gives no command. -/
inductive DecodeError where
  /-- There is no byte: `rx_valid = 0` (R35: `rx_byte` is taken only when `rx_valid = 1`). -/
  | noByte
deriving DecidableEq, Repr

/-- The command at the head of a byte stream, and the rest of the stream. Each byte is one command (R42). -/
def decode : List Byte → Except DecodeError (Instr × List Byte)
  | [] => .error .noByte
  | b :: rest => .ok (decodeByte b, rest)

/-- The byte that selects a command (R42), and none for an operation that no received byte selects (R52). TX_DOT and
TX_DASH are output bytes, not commands (log entry 10). -/
def encode : Instr → Option Byte
  | .rxDot => some 0x2E
  | .rxDash => some 0x2D
  | .rxCharEnd => some 0x43
  | .rxCharEndLower => some 0x63
  | .rxHardCharFlush => some 0x48
  | .rxWordEnd => some 0x57
  | .rxWordEndLower => some 0x77
  | .rxSoftWordFlush => some 0x4F
  | .rxIgnore b => some b
  | .reset => none
  | .txHold => none
  | .syncEmit => none
  | .gapEval => none
  | .debounceSample => none
  | .evPressed => none
  | .evReleased => none
  | .discard => none
  | .classifySignal _ => none
  | .classifyGap _ => none
  | .charTimeout => none
  | .wordTimeout => none
  | .txDot => none
  | .txDash => none

/-- The byte of an instruction whose low `nbits` bits are those of `w`, every bit above them 0. -/
def tableByte (nbits w : Nat) : Byte := BitVec.ofNat 8 (w % 2 ^ nbits)

/-- The command the decoder reads from a word of spec/opcode_table.json: one byte (R42). A table word of more than one
byte stands for no command (log entry 10). -/
def decodeTableWord (nbits w : Nat) : Option Instr :=
  if nbits ≤ 8 then
    match decode [tableByte nbits w] with
    | .ok (i, _) => some i
    | .error _ => none
  else none

end Sys2Proof
end

