-- ==== Sys2Proof/Config.lean ====
section
/-! DEFINITION. The configuration record CFG of the block (00_scope.md R5), its defaults, the constants derived from it
(R7), and the values the spec leaves open (opaque constants, without a body). -/

namespace Sys2Proof

/-- A row of DECODE_TABLE: a pattern and its letter's code (R5, R49). -/
structure DecodeRow where
  pattern : List DotDash
  code    : Byte
deriving DecidableEq, Repr, Inhabited

/-- CFG, the configuration record (R5): a parameter of the step function, fixed for a session. It is not state of the
block (R13); `Machine.State` carries it because `exec` and `step` have no other argument (log entry 2). -/
structure Cfg where
  /-- `TW`, the tick width in bits. -/
  tickWidth : Nat
  /-- `TICKS_PER_MS`, a TW-bit unsigned value. -/
  ticksPerMs : Nat
  /-- `DEBOUNCE_MS` (`D`, and the `debounce` of §4.3: decision D36). -/
  debounceMs : BitVec 32
  /-- `DOT_THRESHOLD_MS`. -/
  dotThresholdMs : BitVec 32
  /-- `DASH_THRESHOLD_MS`. -/
  dashThresholdMs : BitVec 32
  /-- `INTER_CHAR_GAP_MS`. -/
  interCharGapMs : BitVec 32
  /-- `WORD_GAP_MS`. -/
  wordGapMs : BitVec 32
  /-- `DOT_TONE_MS`. -/
  dotToneMs : BitVec 32
  /-- `DASH_TONE_MS`. -/
  dashToneMs : BitVec 32
  /-- `DOT_FREQ_HZ`. -/
  dotFreqHz : BitVec 16
  /-- `DASH_FREQ_HZ`. -/
  dashFreqHz : BitVec 16
  /-- `SYNC_PATTERN`; that it holds only Dot and Dash (R6) is its type. -/
  syncPattern : List DotDash
  /-- `DECODE_TABLE`, in table order. -/
  decodeTable : List DecodeRow
  /-- `MORSE_CAP`. -/
  morseCap : Nat
  /-- `UNKNOWN_CODE`. -/
  unknownCode : Byte
deriving DecidableEq, Repr, Inhabited

/-- `DOT_FREQ_HZ` where no other value is given: OPEN in the source (R5, decision D29). DESIGN CHOICE: a free value
(log entry 4, safe). -/
opaque Config.dotFreqHz : BitVec 16

/-- `DASH_FREQ_HZ` where no other value is given: OPEN in the source (R5, decision D29). DESIGN CHOICE: a free value
(log entry 4, safe). -/
opaque Config.dashFreqHz : BitVec 16

open Sys2Proof.DotDash in
/-- The default DECODE_TABLE: the 26 rows of R49, in its order. PRESUMED by the spec itself: its patterns and codes are
marked `[from general knowledge, not in source]` (log entry 13). DESIGN CHOICE (log entry 16, unsafe for Z): row 25 (Z)
contradicts itself, since its pattern `--..` is the bits 0011 under R49's convention and its bits cell says 1100; the row
here is the pattern, as 95_test_vectors.md V-RT has it. -/
def defaultDecodeTable : List DecodeRow :=
  [ ⟨[dot, dash], 0x41⟩, ⟨[dash, dot, dot, dot], 0x42⟩, ⟨[dash, dot, dash, dot], 0x43⟩,
    ⟨[dash, dot, dot], 0x44⟩, ⟨[dot], 0x45⟩, ⟨[dot, dot, dash, dot], 0x46⟩,
    ⟨[dash, dash, dot], 0x47⟩, ⟨[dot, dot, dot, dot], 0x48⟩, ⟨[dot, dot], 0x49⟩,
    ⟨[dot, dash, dash, dash], 0x4A⟩, ⟨[dash, dot, dash], 0x4B⟩, ⟨[dot, dash, dot, dot], 0x4C⟩,
    ⟨[dash, dash], 0x4D⟩, ⟨[dash, dot], 0x4E⟩, ⟨[dash, dash, dash], 0x4F⟩,
    ⟨[dot, dash, dash, dot], 0x50⟩, ⟨[dash, dash, dot, dash], 0x51⟩, ⟨[dot, dash, dot], 0x52⟩,
    ⟨[dot, dot, dot], 0x53⟩, ⟨[dash], 0x54⟩, ⟨[dot, dot, dash], 0x55⟩,
    ⟨[dot, dot, dot, dash], 0x56⟩, ⟨[dot, dash, dash], 0x57⟩, ⟨[dash, dot, dot, dash], 0x58⟩,
    ⟨[dash, dot, dash, dash], 0x59⟩, ⟨[dash, dash, dot, dot], 0x5A⟩ ]

open Sys2Proof.DotDash in
/-- The default SYNC_PATTERN, `"...---..."` (R51). -/
def defaultSyncPattern : List DotDash :=
  [dot, dot, dot, dash, dash, dash, dot, dot, dot]

/-- The defaults of R5, "the values a model uses when no other value is given". -/
def defaultCfg : Cfg where
  tickWidth := 64
  ticksPerMs := 1000
  debounceMs := 50
  dotThresholdMs := 250
  dashThresholdMs := 750
  interCharGapMs := 750
  wordGapMs := 1750
  dotToneMs := 250
  dashToneMs := 750
  dotFreqHz := Config.dotFreqHz
  dashFreqHz := Config.dashFreqHz
  syncPattern := defaultSyncPattern
  decodeTable := defaultDecodeTable
  morseCap := 5
  unknownCode := 0x3F

/-- `SYNC_LEN` (R7). -/
def Cfg.syncLen (c : Cfg) : Nat := c.syncPattern.length

/-- `MAXLEN`, the length of the longest DECODE_TABLE pattern (R7); 0 for an empty table, which is not legal (R90, log entry 6). -/
def Cfg.maxLen (c : Cfg) : Nat := (c.decodeTable.map (fun r => r.pattern.length)).foldr max 0

/-- The width of `sync_idx` (R7). -/
def Cfg.syncIdxWidth (c : Cfg) : Nat := bitsFor (c.syncLen + 1)

/-- The width of `buf_len` (R7). -/
def Cfg.bufLenWidth (c : Cfg) : Nat := bitsFor (c.morseCap + 1)

end Sys2Proof
end

