-- ==== Sys2Proof/Machine/State.lean ====
section
/-! DEFINITION. The state of one instance of the block: the registers of 10_state.md R16–R31, and beside them what the
MODEL carries because `step` takes nothing but a state: the configuration, the input ports, the output ports, and two
wires of the combinational paths. -/

namespace Sys2Proof.Machine

/-- The input ports of one step (R14); `clk` is the step itself. `rxByte` is read only when `rxValid` holds, and of
`tickNow` the block sees the low TW bits (`State.now`, log entry 9). -/
structure Inputs where
  /-- `rst`. -/
  rst : Bool
  /-- `tick_now`. -/
  tickNow : Tick
  /-- `btn_n`, active low (R60). -/
  btnN : Bool
  /-- `tone_busy`. -/
  toneBusy : Bool
  /-- `rx_valid`. -/
  rxValid : Bool
  /-- `rx_byte`. -/
  rxByte : Byte
deriving DecidableEq, Repr, Inhabited

/-- One `emit` of the transmit side (R10, R15): a port group with its values. -/
inductive TxEmit where
  /-- The debounced event port `evt` (R61). -/
  | evt (edge : Edge)
  /-- The tone request port `tone` (R68): symbol, frequency, duration. -/
  | tone (sym : DotDash) (freqHz : BitVec 16) (ms : BitVec 32)
  /-- The serial transmit port `tx` (R68). -/
  | tx (b : Byte)
  /-- The gap marker port `gap` (R69). -/
  | gap (kind : GapKind)
deriving DecidableEq, Repr, Inhabited

/-- One `emit` of the receive side (R10, R15). -/
inductive RxEmit where
  /-- The received character port `rx_char` (R86). -/
  | char (kind : RxCharKind) (code : Byte)
  /-- The received space port `rx_space` (R88). -/
  | space
deriving DecidableEq, Repr, Inhabited

/-- The state of one instance of the block, as plain data. -/
structure State where
  /-- The MODEL's own field: CFG, the parameter of the step function (R5, R13). No operation writes it. -/
  cfg : Cfg
  /-- The MODEL's own field: the input ports of the current step (R14), those of the last step between two steps. -/
  inp : Inputs
  /-- The MODEL's own field: the input ports of the steps to come, next step first (R53; log entry 7). -/
  script : List Inputs
  /-- `deb_pressed` (R16). -/
  debPressed : Bool
  /-- `deb_last` (R17). -/
  debLast : Tick
  /-- `sync_idx` (R18). -/
  syncIdx : Nat
  /-- `was_pressed` (R19). -/
  wasPressed : Bool
  /-- `press_start` (R20). -/
  pressStart : Tick
  /-- `gap_active` (R21). -/
  gapActive : Bool
  /-- `release_time` (R22). -/
  releaseTime : Tick
  /-- `char_marked` (R23). -/
  charMarked : Bool
  /-- `space_added` (R24). -/
  spaceAdded : Bool
  /-- `accumulating` (R26). -/
  accumulating : Bool
  /-- `in_word` (R27). -/
  inWord : Bool
  /-- `space_emitted` (R28). -/
  spaceEmitted : Bool
  /-- `last_signal` (R29). -/
  lastSignal : Tick
  /-- `buf_len` (R30). -/
  bufLen : Nat
  /-- `buf`, MORSE_CAP symbols, the first received at index 0 (R31, R46). -/
  buf : List DotDash
  /-- The MODEL's own field: the event that DEBOUNCE_SAMPLE returned in the current step (R61). -/
  event : Option ButtonEvent
  /-- The MODEL's own field: the classifier's result line, driven by a call in the current step (R45, R54, R55). -/
  classOut : Option ClassCode
  /-- The MODEL's own field: what the transmit side emitted in the current step, in order (R10, R15; log entry 8). -/
  txOut : List TxEmit
  /-- The MODEL's own field: what the receive side emitted in the current step, in order (R10, R15; log entry 8). -/
  rxOut : List RxEmit
deriving DecidableEq, Repr

/-- The faults of the block: none. "The block raises no exception, fault or trap" (60_exceptions.md R95). -/
inductive Fault where
deriving DecidableEq, Repr

/-- Why the model gives no next state. -/
inductive Refusal where
  /-- Raised by an arm of `exec` whose instruction has no meaning yet. Safe: nothing is claimed of the instruction. No
  arm raises it now. -/
  | notModelled (mnemonic : String)
  /-- Raised by every operation under an illegal configuration: "A model refuses an illegal configuration: it gives the
  block no behaviour under it" (R6). Safe: nothing is claimed of such a configuration. -/
  | illegalConfiguration
deriving DecidableEq, Repr

/-- The outcome of an operation. -/
abbrev Result := Host.Outcome State Fault Refusal

/-- The input ports of the reset step after which `State.reset` stands. Its `tick_now` is DESIGN CHOICE 0 (log entry 1,
unsafe); a reset step ignores every other input (R104). -/
def resetInputs : Inputs where
  rst := true
  tickNow := 0
  btnN := true
  toneBusy := false
  rxValid := false
  rxByte := 0

/-- The machine right after a reset step at tick 0 under the default configuration: every register at the reset value of
10_state.md §6, no output driven (R104), no step to come. -/
def State.reset : State where
  cfg := defaultCfg
  inp := resetInputs
  script := []
  debPressed := false
  debLast := 0
  syncIdx := 0
  wasPressed := false
  pressStart := 0
  gapActive := false
  releaseTime := 0
  charMarked := false
  spaceAdded := false
  accumulating := false
  inWord := false
  spaceEmitted := true
  lastSignal := 0
  bufLen := 0
  buf := List.replicate 5 .dot
  event := none
  classOut := none
  txOut := []
  rxOut := []

end Sys2Proof.Machine
end

