-- ==== Sys2Proof/Machine/Operands.lean ====
section
/-! DEFINITION. The operands of the operations: the current tick and the time primitive (00_scope.md R8), millisecond
parameters, the raw button level, and the helper functions of R11. -/

namespace Sys2Proof.Machine

/-- `now`: the `tick_now` of the current step, a TW-bit port (R9, R14). -/
def State.now (s : State) : Tick := s.inp.tickNow % 2 ^ s.cfg.tickWidth

/-- `elapsed_ms(now, then)`, the only time primitive (R8): an unsigned TW-bit subtraction that wraps, then truncating
unsigned division by TICKS_PER_MS. -/
def elapsedMs (c : Cfg) (now since : Tick) : Nat :=
  (BitVec.ofNat c.tickWidth now - BitVec.ofNat c.tickWidth since).toNat / c.ticksPerMs

/-- A `*_MS` parameter, "zero-extended to TW bits before it is compared" (R5, decision D37). A parameter that fits in TW bits
is itself. One that does not (TW below 32) is the largest TW-bit value: DEDUCED, log entry 5. R93 needs the extension to keep
the order of the parameters under every legal configuration, and no other TW-bit value does (`zextTW_unique`). -/
def zextTW (c : Cfg) (v : BitVec 32) : Nat := min v.toNat (2 ^ c.tickWidth - 1)

/-- `pressed_raw = NOT btn_n` (R60). -/
def State.pressedRaw (s : State) : Bool := !s.inp.btnN

/-- `byte_of` (R11): `'.'` and `'-'` (R44). -/
def byteOf : DotDash → Byte
  | .dot => 0x2E
  | .dash => 0x2D

/-- `tone_ms_of` (R11). -/
def toneMsOf (c : Cfg) : DotDash → BitVec 32
  | .dot => c.dotToneMs
  | .dash => c.dashToneMs

/-- `freq_of` (R11). -/
def freqOf (c : Cfg) : DotDash → BitVec 16
  | .dot => c.dotFreqHz
  | .dash => c.dashFreqHz

/-- The input ports as they stand when no further step is written: the levels keep their last value, `rst` and
`rx_valid` are 0 (R53; log entry 7). -/
def Inputs.hold (i : Inputs) : Inputs := { i with rst := false, rxValid := false }

end Sys2Proof.Machine
end

