-- ==== Sys2Proof/Machine/Flags.lean ====
section
/-! DEFINITION. The conditions of the block: the classifier (40_classifier.md), the five elapsed-time comparators
(60_exceptions.md R100), and the named states (10_state.md R25, R32), which are functions of the registers. -/

namespace Sys2Proof.Machine

/-- `CLASSIFY_SIGNAL(d)` (R54): ties go to the shorter class (R56). -/
def classifySignal (c : Cfg) (d : Nat) : ClassCode :=
  if d ≤ zextTW c c.dotThresholdMs then .dot
  else if d ≤ zextTW c c.dashThresholdMs then .dash
  else .noise

/-- `CLASSIFY_GAP(g)` (R55): ties go to the shorter class (R56). -/
def classifyGap (c : Cfg) (g : Nat) : ClassCode :=
  if g ≤ zextTW c c.interCharGapMs then .intraChar
  else if g ≤ zextTW c c.wordGapMs then .charGap
  else .wordGap

/-- The Dot or Dash a signal class stands for, and none for the other classes (R71). -/
def symOfClass : ClassCode → Option DotDash
  | .dot => some .dot
  | .dash => some .dash
  | .intraChar => none
  | .charGap => none
  | .wordGap => none
  | .noise => none

/-- The debounce window has passed since the last accepted transition: strictly more than DEBOUNCE_MS (R61, R100). -/
def State.debounceOpen (s : State) : Bool :=
  decide (elapsedMs s.cfg s.now s.debLast > zextTW s.cfg s.cfg.debounceMs)

/-- `d = elapsed_ms(now, S.press_start)`, the length of the press (R71). -/
def State.pressMs (s : State) : Nat := elapsedMs s.cfg s.now s.pressStart

/-- The silence since the last emitted symbol (R69). -/
def State.gapMs (s : State) : Nat := elapsedMs s.cfg s.now s.releaseTime

/-- The receive character timeout has matured: strictly more than INTER_CHAR_GAP_MS while accumulating (R78). -/
def State.charTimeoutDue (s : State) : Bool :=
  s.accumulating && decide (elapsedMs s.cfg s.now s.lastSignal > zextTW s.cfg s.cfg.interCharGapMs)

/-- The receive word timeout has matured: in a word, no space emitted yet, and strictly more than WORD_GAP_MS (R79). -/
def State.wordTimeoutDue (s : State) : Bool :=
  s.inWord && !s.spaceEmitted && decide (elapsedMs s.cfg s.now s.lastSignal > zextTW s.cfg s.cfg.wordGapMs)

/-- The preamble is running (R18). -/
def State.inPreamble (s : State) : Bool := decide (s.syncIdx < s.cfg.syncLen)

/-- GAP_EVAL is selected in a step that is neither held nor in the preamble (R52, R65). -/
def State.gapEvalSelected (s : State) : Bool := !s.wasPressed && s.gapActive

/-- The symbol detector's named states (R25). -/
inductive TxState where
  | idle
  | pressed
  | releasedTimingGap
deriving DecidableEq, Repr

/-- `tx_state` (R25). -/
def State.txState (s : State) : TxState :=
  if s.wasPressed then .pressed
  else if s.gapActive then .releasedTimingGap
  else .idle

/-- The framing controller's state AccumulatingChar (R32). -/
def State.rxAccumulatingChar (s : State) : Bool := s.accumulating

/-- The framing controller's state InWord (R32). -/
def State.rxInWord (s : State) : Bool := s.inWord

/-- The framing controller's state Idle (R32). -/
def State.rxIdle (s : State) : Bool := !s.accumulating && !s.inWord

end Sys2Proof.Machine
end

