-- ==== Sys2Proof/WellFormed.lean ====
section
/-! DEFINITION. What the block accepts: a legal configuration (00_scope.md R5, R6) and a well-formed operation
(30_encoding.md R42, 40_classifier.md R54, R55). -/

namespace Sys2Proof

/-- The widths and ranges R5 gives the fields that are held as numbers: TW ≥ 1, TICKS_PER_MS ≥ 1 and a TW-bit value, a sync
pattern of at most 255 symbols. That SYNC_PATTERN and the patterns hold only Dot and Dash is their type. -/
def Cfg.rangesOk (c : Cfg) : Bool :=
  decide (1 ≤ c.tickWidth) && decide (1 ≤ c.ticksPerMs) && decide (c.ticksPerMs < 2 ^ c.tickWidth)
    && decide (c.syncPattern.length ≤ 255)

/-- The order of the thresholds (R6). -/
def Cfg.thresholdsOk (c : Cfg) : Bool :=
  decide (c.dotThresholdMs.toNat < c.dashThresholdMs.toNat) && decide (c.interCharGapMs.toNat < c.wordGapMs.toNat)

/-- Every pattern is non-empty and of at most MORSE_CAP symbols, and MORSE_CAP ≥ MAXLEN (R6), where MAXLEN ≥ 1: the table has a
pattern (R90; log entry 6). -/
def Cfg.patternsFit (c : Cfg) : Bool :=
  c.decodeTable.all (fun r => decide (1 ≤ r.pattern.length) && decide (r.pattern.length ≤ c.morseCap))
    && decide (c.maxLen ≤ c.morseCap) && decide (1 ≤ c.maxLen)

/-- The patterns are pairwise distinct (R6). -/
def Cfg.patternsDistinct (c : Cfg) : Bool :=
  decide ((c.decodeTable.map (fun r => r.pattern)).Nodup)

/-- A legal configuration (R6 as R90 reads it, with the legal values of R5; log entry 6). -/
def Cfg.legal (c : Cfg) : Bool :=
  c.rangesOk && c.thresholdsOk && c.patternsFit && c.patternsDistinct

/-- Every millisecond parameter that is compared fits in TW bits, so that its zero-extension (decision D37) is itself.
Every configuration with TW ≥ 32 is such a one (log entry 5). -/
def Cfg.msFits (c : Cfg) : Bool :=
  decide (c.debounceMs.toNat < 2 ^ c.tickWidth) && decide (c.dotThresholdMs.toNat < 2 ^ c.tickWidth)
    && decide (c.dashThresholdMs.toNat < 2 ^ c.tickWidth) && decide (c.interCharGapMs.toNat < 2 ^ c.tickWidth)
    && decide (c.wordGapMs.toNat < 2 ^ c.tickWidth)

/-- The eight bytes that R42 lists. -/
def listedBytes : List Byte := [0x2E, 0x2D, 0x43, 0x63, 0x48, 0x57, 0x77, 0x4F]

/-- A well-formed operation: RX_IGNORE is of a byte R42 does not list (R85), and the operand of a classification is a
TW-bit value (R54, R55). -/
def Instr.wellFormed (c : Cfg) : Instr → Bool
  | .rxIgnore b => !listedBytes.contains b
  | .classifySignal d => decide (d < 2 ^ c.tickWidth)
  | .classifyGap g => decide (g < 2 ^ c.tickWidth)
  | .rxDot => true
  | .rxDash => true
  | .rxCharEnd => true
  | .rxCharEndLower => true
  | .rxHardCharFlush => true
  | .rxWordEnd => true
  | .rxWordEndLower => true
  | .rxSoftWordFlush => true
  | .reset => true
  | .txHold => true
  | .syncEmit => true
  | .gapEval => true
  | .debounceSample => true
  | .evPressed => true
  | .evReleased => true
  | .discard => true
  | .charTimeout => true
  | .wordTimeout => true
  | .txDot => true
  | .txDash => true

end Sys2Proof
end

