-- ==== Sys2Proof/Machine/Ops.lean ====
section
/-! DEFINITION. The shared operations: emitting on an output port (00_scope.md R10), EMIT_SYMBOL (R68), LOOKUP (R87),
DECODE_AND_CLEAR (R86), EMIT_SPACE (R88), the reset values (R104), sampling the input ports (R14), and giving an outcome
under a legal configuration (R6). Taking an exception and returning from one do not exist (R95). -/

namespace Sys2Proof.Machine

/-- The outcome of an operation whose next state is `t`: the block has a behaviour only under a legal configuration
(R6). -/
def State.becomes (s t : State) : Result :=
  if s.cfg.legal then .next t else .refused .illegalConfiguration

/-- One statement of a step after another: the second starts from the state the first leaves (R9, R38). -/
def andThen (r : Result) (f : State → Result) : Result :=
  match r with
  | .next s => f s
  | .fault e => .fault e
  | .refused e => .refused e

/-- `emit` on a transmit-side port (R10). -/
def State.emitTx (s : State) (e : TxEmit) : State := { s with txOut := s.txOut ++ [e] }

/-- `emit` on a receive-side port (R10). -/
def State.emitRx (s : State) (e : RxEmit) : State := { s with rxOut := s.rxOut ++ [e] }

/-- A call of the classifier drives its result line (R45); it writes no register and emits nothing (R59). -/
def State.driveClass (s : State) (k : ClassCode) : State := { s with classOut := some k }

/-- `EMIT_SYMBOL(s)`, the "dot/dash pulse primitive" (R68): a tone request and a serial byte. -/
def State.emitSymbol (s : State) (sym : DotDash) : State :=
  (s.emitTx (.tone sym (freqOf s.cfg sym) (toneMsOf s.cfg sym))).emitTx (.tx (byteOf sym))

/-- `DISCARD()` (R72): nothing but `was_pressed <- 0`, which EV_RELEASED has already done (log entry 11). -/
def State.discard (s : State) : State := { s with wasPressed := false }

/-- `LOOKUP(buf, n)` (R87): the first row of DECODE_TABLE whose pattern is the first `n` symbols of the buffer, else
Unknown with UNKNOWN_CODE (R48). -/
def lookup (c : Cfg) (buf : List DotDash) (n : Nat) : RxCharKind × Byte :=
  match c.decodeTable.find? (fun r => r.pattern.length == n && buf.take n == r.pattern) with
  | some r => (.letter, r.code)
  | none => (.unknown, c.unknownCode)

/-- `DECODE_AND_CLEAR()` (R86). The symbol storage keeps its bits: only `buf_len` is cleared (log entry 12). -/
def State.decodeAndClear (s : State) : State :=
  { s.emitRx (.char (lookup s.cfg s.buf s.bufLen).1 (lookup s.cfg s.buf s.bufLen).2) with
    bufLen := 0, accumulating := false }

/-- `EMIT_SPACE()` (R88). -/
def State.emitSpace (s : State) : State :=
  { s.emitRx .space with spaceEmitted := true, inWord := false }

/-- "if not already accumulating, reset `MorseBuffer` and enter `AccumulatingChar`" (R80). -/
def State.openChar (s : State) : State :=
  if s.accumulating then s else { s with bufLen := 0, accumulating := true }

/-- "append the symbol", dropped where the buffer is full (R80). -/
def State.appendSym (s : State) (sym : DotDash) : State :=
  if s.bufLen < s.cfg.morseCap then { s with buf := s.buf.set s.bufLen sym, bufLen := s.bufLen + 1 } else s

/-- `RX_SIGNAL` (R80): append the symbol and restart both timeouts, also where the symbol is dropped. -/
def State.rxSignal (s : State) (sym : DotDash) : State :=
  { s.openChar.appendSym sym with lastSignal := s.now, inWord := true, spaceEmitted := false }

/-- `RX_CHAR_END()` (R81). -/
def State.rxCharEnd (s : State) : State :=
  if 0 < s.bufLen ∧ s.accumulating = true then s.decodeAndClear else s

/-- `RX_WORD_END()` (R83). -/
def State.rxWordEnd (s : State) : State :=
  if s.inWord = true ∧ s.spaceEmitted = false then s.emitSpace else s

/-- Every register at its reset value, no output driven (R104; 10_state.md §6): `deb_last` takes the reset step's
`tick_now`, `space_emitted` takes 1, every other register 0. -/
def State.resetRegisters (s : State) : State :=
  { s with
    debPressed := false, debLast := s.now, syncIdx := 0, wasPressed := false, pressStart := 0,
    gapActive := false, releaseTime := 0, charMarked := false, spaceAdded := false,
    accumulating := false, inWord := false, spaceEmitted := true, lastSignal := 0,
    bufLen := 0, buf := List.replicate s.cfg.morseCap .dot,
    event := none, classOut := none, txOut := [], rxOut := [] }

/-- The input ports of the next step: the next line of the script, and where no line is left the levels held (R53; log
entry 7). -/
def State.nextInputs (s : State) : Inputs := s.script.headD s.inp.hold

/-- A clock edge: the input ports are sampled (R14) and no output is valid yet (R10). -/
def State.sample (s : State) : State :=
  { s with
    inp := s.nextInputs, script := s.script.tail,
    event := none, classOut := none, txOut := [], rxOut := [] }

end Sys2Proof.Machine
end

