-- ==== Sys2Proof/Machine/Classifier.lean ====
section
/-! DEFINITION. The duration classifier's two operations (40_classifier.md R54, R55). They have no state and no side
effect (R59): a call drives the result line and nothing else. -/

namespace Sys2Proof.Machine

/-- CLASSIFY_SIGNAL (R54). -/
def execClassifySignal (d : Nat) (s : State) : Result :=
  s.becomes (s.driveClass (classifySignal s.cfg d))

/-- CLASSIFY_GAP (R55). -/
def execClassifyGap (g : Nat) (s : State) : Result :=
  s.becomes (s.driveClass (classifyGap s.cfg g))

end Sys2Proof.Machine
end

