-- ==== Sys2Proof/Machine/Debounce.lean ====
section
/-! DEFINITION. The debounced edge detector (41_debounce.md R60–R62). -/

namespace Sys2Proof.Machine

/-- The edge to a raw level (R61). -/
def edgeOf (pressed : Bool) : Edge := if pressed then .pressed else .released

/-- The accepting arm of DEBOUNCE_SAMPLE (R61). -/
def State.acceptEdge (s : State) : State :=
  { s.emitTx (.evt (edgeOf s.pressedRaw)) with
    debPressed := s.pressedRaw, debLast := s.now, event := some ⟨edgeOf s.pressedRaw, s.now⟩ }

/-- `DEBOUNCE_SAMPLE()` (R61): a candidate is a raw level that differs from the debounced level; it is accepted only
after the window, and dropped otherwise (R62). -/
def State.debounceSample (s : State) : State :=
  if s.pressedRaw = s.debPressed then { s with event := none }
  else if s.debounceOpen then s.acceptEdge
  else { s with event := none }

/-- DEBOUNCE_SAMPLE (R61). -/
def execDebounceSample (s : State) : Result := s.becomes s.debounceSample

end Sys2Proof.Machine
end

