-- ==== Sys2Proof/Machine/Reset.lean ====
section
/-! DEFINITION. The reset step (70_reset_and_hazards.md R104). -/

namespace Sys2Proof.Machine

/-- RESET (R104). -/
def execReset (s : State) : Result := s.becomes s.resetRegisters

end Sys2Proof.Machine
end

