-- ==== Sys2Proof/Machine/RxFraming.lean ====
section
/-! DEFINITION. The receive framing controller: the byte commands and the timeout accumulator (43_rx_framing.md
R78–R85). -/

namespace Sys2Proof.Machine

/-- RX_DOT (R80). -/
def execRxDot (s : State) : Result := s.becomes (s.rxSignal .dot)

/-- RX_DASH (R80). -/
def execRxDash (s : State) : Result := s.becomes (s.rxSignal .dash)

/-- RX_CHAR_END, `'C'` (R81). -/
def execRxCharEnd (s : State) : Result := s.becomes s.rxCharEnd

/-- RX_CHAR_END, `'c'` (R81). -/
def execRxCharEndLower (s : State) : Result := s.becomes s.rxCharEnd

/-- RX_HARD_CHAR_FLUSH: exactly the effect of RX_CHAR_END (R82). -/
def execRxHardCharFlush (s : State) : Result := s.becomes s.rxCharEnd

/-- RX_WORD_END, `'W'` (R83). -/
def execRxWordEnd (s : State) : Result := s.becomes s.rxWordEnd

/-- RX_WORD_END, `'w'` (R83). -/
def execRxWordEndLower (s : State) : Result := s.becomes s.rxWordEnd

/-- RX_SOFT_WORD_FLUSH (R84): no InWord requirement. -/
def execRxSoftWordFlush (s : State) : Result :=
  s.becomes (if s.spaceEmitted then s else s.emitSpace)

/-- RX_IGNORE: nothing (R85). -/
def execRxIgnore (_b : Byte) (s : State) : Result := s.becomes s

/-- CHAR_TIMEOUT (R78). -/
def execCharTimeout (s : State) : Result :=
  s.becomes (if s.charTimeoutDue then s.decodeAndClear else s)

/-- WORD_TIMEOUT (R79). -/
def execWordTimeout (s : State) : Result :=
  s.becomes (if s.wordTimeoutDue then s.emitSpace else s)

end Sys2Proof.Machine
end

