-- ==== Sys2Proof/Machine/SymbolDetector.lean ====
section
/-! DEFINITION. The symbol detector, the transmit state machine (42_symbol_detector.md R66–R73). -/

namespace Sys2Proof.Machine

/-- TX_HOLD: nothing (R66). -/
def execTxHold (s : State) : Result := s.becomes s

/-- `SYNC_EMIT()` (R67). Its operand is `S.sync_idx < SYNC_LEN`; where no preamble symbol is left it is not selected
(R52, R65) and nothing is sent (log entry 14). -/
def State.syncEmit (s : State) : State :=
  match s.cfg.syncPattern[s.syncIdx]? with
  | some sym => { s.emitSymbol sym with syncIdx := s.syncIdx + 1 }
  | none => s

/-- SYNC_EMIT (R67). -/
def execSyncEmit (s : State) : Result := s.becomes s.syncEmit

/-- `GAP_EVAL()` after the classification `k` of the silence (R69). -/
def State.markGap (s : State) (k : ClassCode) : State :=
  if k = .wordGap ∧ s.spaceAdded = false then
    { s.emitTx (.gap .wordGap) with spaceAdded := true, charMarked := true, gapActive := false }
  else if k = .charGap ∧ s.charMarked = false then
    { s.emitTx (.gap .charGap) with charMarked := true }
  else s

/-- `GAP_EVAL()` (R69). -/
def State.gapEval (s : State) : State :=
  (s.driveClass (classifyGap s.cfg s.gapMs)).markGap (classifyGap s.cfg s.gapMs)

/-- GAP_EVAL (R69). -/
def execGapEval (s : State) : Result := s.becomes s.gapEval

/-- `EV_PRESSED()` (R70); an event that does not fit is ignored (R73). -/
def State.evPressed (s : State) : State :=
  if s.wasPressed then s else { s with wasPressed := true, pressStart := s.now }

/-- EV_PRESSED (R70). -/
def execEvPressed (s : State) : Result := s.becomes s.evPressed

/-- The accepting path of EV_RELEASED for a Dot or Dash (R71). -/
def State.acceptSymbol (s : State) (sym : DotDash) : State :=
  { s.emitSymbol sym with
    gapActive := true, releaseTime := s.now, charMarked := false, spaceAdded := false }

/-- `EV_RELEASED()` from the class of the press on (R71): a Dot or Dash is sent, Noise is discarded (R72). -/
def State.releaseAs (s : State) (k : ClassCode) : State :=
  match symOfClass k with
  | some sym => (s.driveClass k).acceptSymbol sym
  | none => (s.driveClass k).discard

/-- `EV_RELEASED()` (R71): a press of at most DEBOUNCE_MS is a bounce and is discarded (R72); an event that does not fit is
ignored (R73). -/
def State.evReleased (s : State) : State :=
  if s.wasPressed then
    if zextTW s.cfg s.cfg.debounceMs < s.pressMs then
      { s with wasPressed := false }.releaseAs (classifySignal s.cfg s.pressMs)
    else { s with wasPressed := false }.discard
  else s

/-- EV_RELEASED (R71, R72). -/
def execEvReleased (s : State) : Result := s.becomes s.evReleased

/-- DISCARD (R72). -/
def execDiscard (s : State) : Result := s.becomes s.discard

/-- TX_DOT: `EMIT_SYMBOL(DOT)` (R68). -/
def execTxDot (s : State) : Result := s.becomes (s.emitSymbol .dot)

/-- TX_DASH: `EMIT_SYMBOL(DASH)` (R68). -/
def execTxDash (s : State) : Result := s.becomes (s.emitSymbol .dash)

end Sys2Proof.Machine
end

