-- ==== Sys2Proof/Machine/Dispatch.lean ====
section
/-! DEFINITION. The meaning of every operation of the block (30_encoding.md R52), one arm per row of the opcode table. -/

namespace Sys2Proof.Machine

def exec (i : Instr) (s : State) : Host.Outcome State Fault Refusal :=
  match i with
  | .rxDot => Sys2Proof.Machine.execRxDot s
  | .rxDash => Sys2Proof.Machine.execRxDash s
  | .rxCharEnd => Sys2Proof.Machine.execRxCharEnd s
  | .rxCharEndLower => Sys2Proof.Machine.execRxCharEndLower s
  | .rxHardCharFlush => Sys2Proof.Machine.execRxHardCharFlush s
  | .rxWordEnd => Sys2Proof.Machine.execRxWordEnd s
  | .rxWordEndLower => Sys2Proof.Machine.execRxWordEndLower s
  | .rxSoftWordFlush => Sys2Proof.Machine.execRxSoftWordFlush s
  | .rxIgnore b => Sys2Proof.Machine.execRxIgnore b s
  | .reset => Sys2Proof.Machine.execReset s
  | .txHold => Sys2Proof.Machine.execTxHold s
  | .syncEmit => Sys2Proof.Machine.execSyncEmit s
  | .gapEval => Sys2Proof.Machine.execGapEval s
  | .debounceSample => Sys2Proof.Machine.execDebounceSample s
  | .evPressed => Sys2Proof.Machine.execEvPressed s
  | .evReleased => Sys2Proof.Machine.execEvReleased s
  | .discard => Sys2Proof.Machine.execDiscard s
  | .classifySignal d => Sys2Proof.Machine.execClassifySignal d s
  | .classifyGap g => Sys2Proof.Machine.execClassifyGap g s
  | .charTimeout => Sys2Proof.Machine.execCharTimeout s
  | .wordTimeout => Sys2Proof.Machine.execWordTimeout s
  | .txDot => Sys2Proof.Machine.execTxDot s
  | .txDash => Sys2Proof.Machine.execTxDash s

end Sys2Proof.Machine
end

