-- ==== Sys2Proof/Machine/Sequencer.lean ====
section
/-! DEFINITION. The order of the operations inside one step: the transmit side (42_symbol_detector.md R65) and the receive
side (43_rx_framing.md R77). -/

namespace Sys2Proof.Machine

/-- GAP_EVAL where it is selected (R65). -/
def txGap (s : State) : Result := if s.gapEvalSelected then exec .gapEval s else .next s

/-- The event that DEBOUNCE_SAMPLE returned goes to the encoder in the same step (R61, R65). -/
def txEvent (s : State) : Result :=
  match s.event with
  | none => .next s
  | some ⟨.pressed, _⟩ => exec .evPressed s
  | some ⟨.released, _⟩ => exec .evReleased s

/-- `TX_STEP()` (R65): hold, then the preamble, then gap evaluation, then the debounce sample and its event (R98). -/
def txStep (s : State) : Result :=
  if s.inp.toneBusy then exec .txHold s
  else if s.inPreamble then exec .syncEmit s
  else andThen (andThen (txGap s) (exec .debounceSample)) txEvent

/-- The byte of the step, taken when `rx_valid = 1` (R42, R77). -/
def rxCommand (s : State) : Result :=
  if s.inp.rxValid then exec (decodeByte s.inp.rxByte) s else .next s

/-- `RX_STEP()` (R77): the character timeout, then the word timeout, then the byte (R98). -/
def rxStep (s : State) : Result :=
  andThen (andThen (exec .charTimeout s) (exec .wordTimeout)) rxCommand

/-- What the block does once its ports are sampled: a reset step (R104), or both sides, which share no register (R39). -/
def blockStep (s : State) : Result :=
  if s.inp.rst then exec .reset s else andThen (txStep s) rxStep

/-- The script with the byte `b` presented in the next step, every other port of that step as it was but `rst = 0` (a byte
presented in a reset step is lost, R104). -/
def State.scriptWithByte (s : State) (b : Byte) : List Inputs :=
  { s.nextInputs with rst := false, rxValid := true, rxByte := b } :: s.script.tail

end Sys2Proof.Machine
end

