-- ==== Sys2Proof/Machine/Step.lean ====
section
/-! DEFINITION. One step of the block: one rising clock edge (00_scope.md R4). -/

namespace Sys2Proof.Machine

/-- One step (R4): sample the input ports, then run the block. There is no fetch (R41): the command of a step is the byte
at its receive port. -/
def step (s : State) : Host.Outcome State Fault Refusal := blockStep s.sample

/-- `s` with the byte of the table word `w` at the receive port of the next step (log entry 7). -/
def State.withFetchWord (s : State) (nbits w : Nat) : State :=
  { s with script := s.scriptWithByte (tableByte nbits w) }

end Sys2Proof.Machine
end

