-- ==== Sys2Proof/Machine/Ports.lean ====
section
/-! DEFINITION. The output port lines of a step (10_state.md R15) with their encodings (30_encoding.md R44–R48), read from
what the two sides emitted. A group is valid exactly when it has a value; the data lines of a group that is not valid are
don't-care (R10) and have none. -/

namespace Sys2Proof.Machine

/-- The 3-bit code of a class (R45). -/
def classBits : ClassCode → BitVec 3
  | .intraChar => 0
  | .dot => 1
  | .dash => 2
  | .charGap => 3
  | .wordGap => 4
  | .noise => 5

/-- The bit of a symbol: Dot = 0, Dash = 1 (R46, R47). -/
def symBit : DotDash → BitVec 1
  | .dot => 0
  | .dash => 1

/-- `evt_pressed`: 1 = Pressed, 0 = Released (R47). -/
def edgeBit : Edge → BitVec 1
  | .pressed => 1
  | .released => 0

/-- `gap_kind`: CharGap = 0, WordGap = 1 (R47). -/
def gapBit : GapKind → BitVec 1
  | .charGap => 0
  | .wordGap => 1

/-- `rx_char_kind`: 0 = a letter, 1 = Unknown (R48). -/
def kindBit : RxCharKind → BitVec 1
  | .letter => 0
  | .unknown => 1

/-- `evt_valid` with `evt_pressed`. -/
def State.evtPort (s : State) : Option (BitVec 1) :=
  s.txOut.findSome? fun e => match e with
    | .evt g => some (edgeBit g)
    | .tone _ _ _ => none
    | .tx _ => none
    | .gap _ => none

/-- `tone_valid` with `tone_sym`, `tone_freq_hz`, `tone_ms`. -/
def State.tonePort (s : State) : Option (BitVec 1 × BitVec 16 × BitVec 32) :=
  s.txOut.findSome? fun e => match e with
    | .tone y f m => some (symBit y, f, m)
    | .evt _ => none
    | .tx _ => none
    | .gap _ => none

/-- `tx_valid` with `tx_byte`. -/
def State.txPort (s : State) : Option Byte :=
  s.txOut.findSome? fun e => match e with
    | .tx b => some b
    | .evt _ => none
    | .tone _ _ _ => none
    | .gap _ => none

/-- `gap_valid` with `gap_kind`. -/
def State.gapPort (s : State) : Option (BitVec 1) :=
  s.txOut.findSome? fun e => match e with
    | .gap k => some (gapBit k)
    | .evt _ => none
    | .tone _ _ _ => none
    | .tx _ => none

/-- `rx_char_valid` with `rx_char_kind`, `rx_char_code`. -/
def State.rxCharPort (s : State) : Option (BitVec 1 × Byte) :=
  s.rxOut.findSome? fun e => match e with
    | .char k b => some (kindBit k, b)
    | .space => none

/-- `rx_space_valid`. -/
def State.rxSpacePort (s : State) : Bool := s.rxOut.contains .space

/-- The contents of `buf` as MORSE_CAP bits (R31, R46), one bit a symbol, index 0 first. -/
def State.bufBits (s : State) : List (BitVec 1) := s.buf.map symBit

end Sys2Proof.Machine
end

