-- ==== Sys2Proof/Safety.lean ====
section
/-! DEFINITION. What a safe run of the block is, in the terms the statements use: the invariants of the registers, paths of
steps, and what a step sent. -/

namespace Sys2Proof.Machine

/-- Every register holds a value of its width and range (10_state.md R16–R31; R7 for the widths that CFG gives). -/
structure State.RegistersInRange (s : State) : Prop where
  debLast : s.debLast < 2 ^ s.cfg.tickWidth
  pressStart : s.pressStart < 2 ^ s.cfg.tickWidth
  releaseTime : s.releaseTime < 2 ^ s.cfg.tickWidth
  lastSignal : s.lastSignal < 2 ^ s.cfg.tickWidth
  syncIdx : s.syncIdx ≤ s.cfg.syncLen
  bufLen : s.bufLen ≤ s.cfg.morseCap
  buf : s.buf.length = s.cfg.morseCap

/-- The transmit-side registers agree with each other: R75 (`was_pressed = deb_pressed`, and `press_start = deb_last` while
pressed), R25 (the named state reads Idle in the preamble), and R69 with R71 (a gap that is being timed has no WordGap
marker yet). -/
structure State.TxCoherent (s : State) : Prop where
  wasPressed : s.wasPressed = s.debPressed
  pressStart : s.wasPressed = true → s.pressStart = s.debLast
  preamble : s.syncIdx < s.cfg.syncLen → s.debPressed = false ∧ s.gapActive = false
  gapOpen : s.gapActive = true → s.spaceAdded = false

/-- The receive-side registers agree with each other: R94 and R90. -/
structure State.RxCoherent (s : State) : Prop where
  space : s.spaceEmitted = !s.inWord
  pending : 0 < s.bufLen → s.accumulating = true
  buffered : s.accumulating = true → 0 < s.bufLen

/-- The invariant of the block under a legal configuration. -/
structure State.Inv (s : State) : Prop where
  legal : s.cfg.legal = true
  ranges : s.RegistersInRange
  tx : s.TxCoherent
  rx : s.RxCoherent

/-- `Steps P s t`: from `s` the block comes to `t` by steps whose states after them all satisfy `P`. -/
inductive Steps (P : State → Prop) : State → State → Prop where
  | refl (s : State) : Steps P s s
  | tail {s t u : State} : Steps P s t → step t = .next u → P u → Steps P s u

/-- The states after each of the next `n` steps, in order (fewer where a step gives no next state). -/
def trace : Nat → State → List State
  | 0, _ => []
  | n + 1, s =>
    match step s with
    | .next t => t :: trace n t
    | .fault _ => []
    | .refused _ => []

/-- One operation after another, each from the state the one before leaves. -/
def execAll : List Instr → State → Result
  | [], s => .next s
  | i :: is, s => andThen (exec i s) (execAll is)

/-- A debounced event is emitted. -/
def TxEmit.isEvt : TxEmit → Bool
  | .evt _ => true
  | .tone _ _ _ => false
  | .tx _ => false
  | .gap _ => false

/-- A tone request is emitted. -/
def TxEmit.isTone : TxEmit → Bool
  | .evt _ => false
  | .tone _ _ _ => true
  | .tx _ => false
  | .gap _ => false

/-- A serial byte is emitted. -/
def TxEmit.isTx : TxEmit → Bool
  | .evt _ => false
  | .tone _ _ _ => false
  | .tx _ => true
  | .gap _ => false

/-- A gap marker is emitted. -/
def TxEmit.isGap : TxEmit → Bool
  | .evt _ => false
  | .tone _ _ _ => false
  | .tx _ => false
  | .gap _ => true

/-- A received character is emitted. -/
def RxEmit.isChar : RxEmit → Bool
  | .char _ _ => true
  | .space => false

/-- A received space is emitted. -/
def RxEmit.isSpace : RxEmit → Bool
  | .char _ _ => false
  | .space => true

/-- The step sent a Dot or Dash on the serial link. -/
def State.sentSymbol (s : State) : Bool := s.txOut.any TxEmit.isTx

/-- The step emitted a received character. -/
def State.sentChar (s : State) : Bool := s.rxOut.any RxEmit.isChar

/-- The bytes the step sent on the serial link. -/
def State.txBytes (s : State) : List Byte :=
  s.txOut.filterMap fun e => match e with
    | .tx b => some b
    | .evt _ => none
    | .tone _ _ _ => none
    | .gap _ => none

/-- The step received a Dot or Dash byte. -/
def State.gotSignal (s : State) : Bool :=
  s.inp.rxValid && (decide (s.inp.rxByte = 0x2E) || decide (s.inp.rxByte = 0x2D))

/-- A step without an accepted debounce transition and without reset. -/
def State.Quiet (s : State) : Prop := s.event = none ∧ s.inp.rst = false

/-- The two states agree on the registers of the receive side and on the configuration. -/
structure SameRx (s t : State) : Prop where
  cfg : s.cfg = t.cfg
  accumulating : s.accumulating = t.accumulating
  inWord : s.inWord = t.inWord
  spaceEmitted : s.spaceEmitted = t.spaceEmitted
  lastSignal : s.lastSignal = t.lastSignal
  bufLen : s.bufLen = t.bufLen
  buf : s.buf = t.buf

/-- The two states agree on the registers of the transmit side and on the configuration. -/
structure SameTx (s t : State) : Prop where
  cfg : s.cfg = t.cfg
  debPressed : s.debPressed = t.debPressed
  debLast : s.debLast = t.debLast
  syncIdx : s.syncIdx = t.syncIdx
  wasPressed : s.wasPressed = t.wasPressed
  pressStart : s.pressStart = t.pressStart
  gapActive : s.gapActive = t.gapActive
  releaseTime : s.releaseTime = t.releaseTime
  charMarked : s.charMarked = t.charMarked
  spaceAdded : s.spaceAdded = t.spaceAdded

/-- The input ports the receive side reads (R14, R77). -/
structure SameRxInputs (i j : Inputs) : Prop where
  rst : i.rst = j.rst
  tickNow : i.tickNow = j.tickNow
  rxValid : i.rxValid = j.rxValid
  rxByte : i.rxByte = j.rxByte

/-- The input ports the transmit side reads (R14, R65). -/
structure SameTxInputs (i j : Inputs) : Prop where
  rst : i.rst = j.rst
  tickNow : i.tickNow = j.tickNow
  btnN : i.btnN = j.btnN
  toneBusy : i.toneBusy = j.toneBusy

end Sys2Proof.Machine
end

