-- ==== Sys2Proof/Certificates/Slice0/Obligations.lean ====
section
/-! DEFINITION. The statements about the Morse timing core, for the provers. Each says which rule of spec/ it formalises. In
the statements about one operation, the next state is written out as an update of `s`: every field the update does not
name is unchanged (the frame). `s.cfg.legal` is R6's premise: the block has a behaviour only under a legal configuration. -/

open Sys2Proof

open Sys2Proof.Machine

/-! ### The byte commands -/

/-- R80: a Dot or Dash byte opens a character with its symbol where none is pending, appends its symbol where the buffer has room and drops
it where it is full, and in every case restarts both timeouts and marks InWord. -/
def Obligations.SignalByteAppendsSymbol : Prop :=
  ∀ (i : Instr) (b : Byte) (y : DotDash) (s : State),
    (i = .rxDot ∧ b = 0x2E ∧ y = .dot) ∨ (i = .rxDash ∧ b = 0x2D ∧ y = .dash) → s.cfg.legal = true →
    decodeByte b = i ∧
    (s.accumulating = false → exec i s = .next { s with
      accumulating := true, buf := s.buf.set 0 y, bufLen := 1,
      lastSignal := s.now, inWord := true, spaceEmitted := false }) ∧
    (s.accumulating = true → s.bufLen < s.cfg.morseCap → exec i s = .next { s with
      buf := s.buf.set s.bufLen y, bufLen := s.bufLen + 1,
      lastSignal := s.now, inWord := true, spaceEmitted := false }) ∧
    (s.accumulating = true → s.cfg.morseCap ≤ s.bufLen → exec i s = .next { s with
      lastSignal := s.now, inWord := true, spaceEmitted := false })

/-- R81, R82, R86: `C`, `c` and `H` decode the pending character, empty the buffer and leave AccumulatingChar; without a
pending character they do nothing. `h` is an ignored byte. -/
def Obligations.CharEndDecodesPendingCharacter : Prop :=
  ∀ (i : Instr) (b : Byte) (s : State),
    (i = .rxCharEnd ∧ b = 0x43) ∨ (i = .rxCharEndLower ∧ b = 0x63) ∨ (i = .rxHardCharFlush ∧ b = 0x48) →
    s.cfg.legal = true →
    decodeByte b = i ∧ decodeByte 0x68 = .rxIgnore 0x68 ∧
    (0 < s.bufLen → s.accumulating = true → exec i s = .next { s with
      rxOut := s.rxOut ++ [.char (lookup s.cfg s.buf s.bufLen).1 (lookup s.cfg s.buf s.bufLen).2],
      bufLen := 0, accumulating := false }) ∧
    (s.bufLen = 0 ∨ s.accumulating = false → exec i s = .next s)

/-- R83, R88: `W` and `w` emit one space in a word whose gap has none yet, and leave the word; otherwise they do nothing. A
pending character is not flushed. -/
def Obligations.WordEndEmitsSpaceInsideWord : Prop :=
  ∀ (i : Instr) (b : Byte) (s : State), (i = .rxWordEnd ∧ b = 0x57) ∨ (i = .rxWordEndLower ∧ b = 0x77) →
    s.cfg.legal = true →
    decodeByte b = i ∧
    (s.inWord = true → s.spaceEmitted = false → exec i s = .next { s with
      rxOut := s.rxOut ++ [.space], spaceEmitted := true, inWord := false }) ∧
    (s.inWord = false ∨ s.spaceEmitted = true → exec i s = .next s)

/-- R84, R88: `O` emits a space where the gap has none yet, in a word or not; a pending character is not flushed. `o` is an
ignored byte. -/
def Obligations.SoftWordFlushNeedsNoWord : Prop :=
  ∀ s : State, s.cfg.legal = true →
    decodeByte 0x4F = .rxSoftWordFlush ∧ decodeByte 0x6F = .rxIgnore 0x6F ∧
    (s.spaceEmitted = false → exec .rxSoftWordFlush s = .next { s with
      rxOut := s.rxOut ++ [.space], spaceEmitted := true, inWord := false }) ∧
    (s.spaceEmitted = true → exec .rxSoftWordFlush s = .next s)

/-- R85, R43: a byte that R42 does not list is RX_IGNORE, well-formed, and changes nothing. -/
def Obligations.UnlistedByteChangesNothing : Prop :=
  ∀ (b : Byte) (s : State), b ∉ listedBytes → s.cfg.legal = true →
    decodeByte b = .rxIgnore b ∧ (Instr.rxIgnore b).wellFormed s.cfg = true ∧ exec (.rxIgnore b) s = .next s

/-- R42: the eight listed bytes, written out bit by bit as R42 does, select their commands, and every other byte is
RX_IGNORE. -/
def Obligations.ListedBytesDecodeToTheirCommands : Prop :=
  decodeByte 0b00101110 = .rxDot ∧ decodeByte 0b00101101 = .rxDash ∧
  decodeByte 0b01000011 = .rxCharEnd ∧ decodeByte 0b01100011 = .rxCharEndLower ∧
  decodeByte 0b01001000 = .rxHardCharFlush ∧ decodeByte 0b01010111 = .rxWordEnd ∧
  decodeByte 0b01110111 = .rxWordEndLower ∧ decodeByte 0b01001111 = .rxSoftWordFlush ∧
  ∀ b : Byte, b ∉ [0x2E, 0x2D, 0x43, 0x63, 0x48, 0x57, 0x77, 0x4F] → decodeByte b = .rxIgnore b

/-- R42, R43: decoding and encoding agree, both ways. Every byte decodes to a well-formed command that it encodes, and the
byte that encodes a well-formed operation decodes to it. -/
def Obligations.DecodeAndEncodeAgree : Prop :=
  ∀ c : Cfg,
    (∀ b : Byte, encode (decodeByte b) = some b ∧ (decodeByte b).wellFormed c = true) ∧
    (∀ (i : Instr) (b : Byte), i.wellFormed c = true → encode i = some b → decodeByte b = i)

/-! ### The timeouts -/

/-- R78, R86: a pending character is decoded exactly when more than INTER_CHAR_GAP_MS have passed since the last signal. -/
def Obligations.CharTimeoutDecodesAfterGap : Prop :=
  ∀ s : State, s.cfg.legal = true →
    (s.accumulating = true → zextTW s.cfg s.cfg.interCharGapMs < elapsedMs s.cfg s.now s.lastSignal →
      exec .charTimeout s = .next { s with
        rxOut := s.rxOut ++ [.char (lookup s.cfg s.buf s.bufLen).1 (lookup s.cfg s.buf s.bufLen).2],
        bufLen := 0, accumulating := false }) ∧
    (s.accumulating = false ∨ elapsedMs s.cfg s.now s.lastSignal ≤ zextTW s.cfg s.cfg.interCharGapMs →
      exec .charTimeout s = .next s)

/-- R79, R88: a word is closed with a space exactly when more than WORD_GAP_MS have passed since the last signal. -/
def Obligations.WordTimeoutEmitsSpaceAfterGap : Prop :=
  ∀ s : State, s.cfg.legal = true →
    (s.inWord = true → s.spaceEmitted = false →
      zextTW s.cfg s.cfg.wordGapMs < elapsedMs s.cfg s.now s.lastSignal →
      exec .wordTimeout s = .next { s with
        rxOut := s.rxOut ++ [.space], spaceEmitted := true, inWord := false }) ∧
    (s.inWord = false ∨ s.spaceEmitted = true ∨
      elapsedMs s.cfg s.now s.lastSignal ≤ zextTW s.cfg s.cfg.wordGapMs → exec .wordTimeout s = .next s)

/-! ### Reset, classifier, debounce, symbol detector -/

/-- R104: RESET writes every register to its reset value, whatever it held, and drives no output; and a step with
`rst = 1` is a reset step: its next state is the same whatever the registers, the button, `tone_busy` and the byte were. -/
def Obligations.ResetWritesEveryRegister : Prop :=
  ∀ s : State, s.cfg.legal = true →
    exec .reset s = .next
      { cfg := s.cfg, inp := s.inp, script := s.script,
        debPressed := false, debLast := s.inp.tickNow % 2 ^ s.cfg.tickWidth, syncIdx := 0,
        wasPressed := false, pressStart := 0, gapActive := false, releaseTime := 0,
        charMarked := false, spaceAdded := false, accumulating := false, inWord := false,
        spaceEmitted := true, lastSignal := 0, bufLen := 0, buf := List.replicate s.cfg.morseCap .dot,
        event := none, classOut := none, txOut := [], rxOut := [] } ∧
    (s.nextInputs.rst = true → step s = .next
      { cfg := s.cfg, inp := s.nextInputs, script := s.script.tail,
        debPressed := false, debLast := s.nextInputs.tickNow % 2 ^ s.cfg.tickWidth, syncIdx := 0,
        wasPressed := false, pressStart := 0, gapActive := false, releaseTime := 0,
        charMarked := false, spaceAdded := false, accumulating := false, inWord := false,
        spaceEmitted := true, lastSignal := 0, bufLen := 0, buf := List.replicate s.cfg.morseCap .dot,
        event := none, classOut := none, txOut := [], rxOut := [] })

/-- R104: a step with `rst = 1` is a reset step. Its outcome depends on the configuration and on that step's `tick_now`
alone: it ignores the registers, the button, `tone_busy` and the byte, and emits nothing. -/
def Obligations.ResetStepIgnoresStateAndInputs : Prop :=
  ∀ s t s' t' : State, s.cfg = t.cfg → s.nextInputs.rst = true → t.nextInputs.rst = true →
    s.nextInputs.tickNow = t.nextInputs.tickNow → step s = .next s' → step t = .next t' →
    SameTx s' t' ∧ SameRx s' t' ∧ s'.txOut = [] ∧ s'.rxOut = [] ∧ s'.event = none ∧
    s'.debLast = s.nextInputs.tickNow % 2 ^ s.cfg.tickWidth

/-- The model's own reset state (log entry 1: the tick of its reset step is the model's choice, 0): it is what RESET leaves
of a state with its configuration and inputs and no step to come. -/
def Obligations.ResetStateIsTheReset : Prop :=
  ∀ s : State, s.cfg = State.reset.cfg → s.inp = State.reset.inp → s.script = [] →
    exec .reset s = .next State.reset

/-- R54, R56: CLASSIFY_SIGNAL gives Dot up to DOT_THRESHOLD_MS, Dash above it and up to DASH_THRESHOLD_MS, Noise above both;
it drives its result line and changes nothing else (R59). -/
def Obligations.ClassifySignalByThresholds : Prop :=
  ∀ (d : Nat) (s : State), s.cfg.legal = true →
    (d ≤ zextTW s.cfg s.cfg.dotThresholdMs →
      exec (.classifySignal d) s = .next { s with classOut := some .dot }) ∧
    (zextTW s.cfg s.cfg.dotThresholdMs < d → d ≤ zextTW s.cfg s.cfg.dashThresholdMs →
      exec (.classifySignal d) s = .next { s with classOut := some .dash }) ∧
    (zextTW s.cfg s.cfg.dotThresholdMs < d → zextTW s.cfg s.cfg.dashThresholdMs < d →
      exec (.classifySignal d) s = .next { s with classOut := some .noise })

/-- R55, R56: CLASSIFY_GAP gives NONE up to INTER_CHAR_GAP_MS, CharGap above it and up to WORD_GAP_MS, WordGap above both; it
drives its result line and changes nothing else (R59). -/
def Obligations.ClassifyGapByThresholds : Prop :=
  ∀ (g : Nat) (s : State), s.cfg.legal = true →
    (g ≤ zextTW s.cfg s.cfg.interCharGapMs →
      exec (.classifyGap g) s = .next { s with classOut := some .intraChar }) ∧
    (zextTW s.cfg s.cfg.interCharGapMs < g → g ≤ zextTW s.cfg s.cfg.wordGapMs →
      exec (.classifyGap g) s = .next { s with classOut := some .charGap }) ∧
    (zextTW s.cfg s.cfg.interCharGapMs < g → zextTW s.cfg s.cfg.wordGapMs < g →
      exec (.classifyGap g) s = .next { s with classOut := some .wordGap })

/-- R56, R57: under a legal configuration every duration has one class of its mode, and every TW-bit duration the class that
the parameters themselves give it; where the thresholds fit in TW bits, one millisecond past a threshold is the next longer
class. DESIGN CHOICE (log entry 17): R57 says that every class is non-empty, and R54 and R55 leave NOISE or WORDGAP no TW-bit
duration where DASH_THRESHOLD_MS or WORD_GAP_MS is at least 2^TW - 1 (and there the threshold plus one is no TW-bit value); the
model follows R54 and R55. -/
def Obligations.ClassesAreTotalAndOrdered : Prop :=
  ∀ c : Cfg, c.legal = true →
    (∀ d, classifySignal c d = .dot ∨ classifySignal c d = .dash ∨ classifySignal c d = .noise) ∧
    (∀ g, classifyGap c g = .intraChar ∨ classifyGap c g = .charGap ∨ classifyGap c g = .wordGap) ∧
    (∀ d, d < 2 ^ c.tickWidth →
      (classifySignal c d = .dot ↔ d ≤ c.dotThresholdMs.toNat) ∧
      (classifySignal c d = .dash ↔ c.dotThresholdMs.toNat < d ∧ d ≤ c.dashThresholdMs.toNat) ∧
      (classifySignal c d = .noise ↔ c.dashThresholdMs.toNat < d)) ∧
    (∀ g, g < 2 ^ c.tickWidth →
      (classifyGap c g = .intraChar ↔ g ≤ c.interCharGapMs.toNat) ∧
      (classifyGap c g = .charGap ↔ c.interCharGapMs.toNat < g ∧ g ≤ c.wordGapMs.toNat) ∧
      (classifyGap c g = .wordGap ↔ c.wordGapMs.toNat < g)) ∧
    (c.msFits = true →
      classifySignal c c.dotThresholdMs.toNat = .dot ∧ classifySignal c (c.dotThresholdMs.toNat + 1) = .dash ∧
      classifySignal c c.dashThresholdMs.toNat = .dash ∧ classifySignal c (c.dashThresholdMs.toNat + 1) = .noise ∧
      classifyGap c c.interCharGapMs.toNat = .intraChar ∧ classifyGap c (c.interCharGapMs.toNat + 1) = .charGap ∧
      classifyGap c c.wordGapMs.toNat = .charGap ∧ classifyGap c (c.wordGapMs.toNat + 1) = .wordGap)

/-- R60, R61: a raw level that differs from the debounced level is accepted exactly when more than DEBOUNCE_MS have passed
since the last acceptance; nothing else changes a register. -/
def Obligations.DebounceAcceptsOnlyAfterWindow : Prop :=
  ∀ s : State, s.cfg.legal = true →
    ((!s.inp.btnN) = s.debPressed → exec .debounceSample s = .next { s with event := none }) ∧
    ((!s.inp.btnN) ≠ s.debPressed →
      elapsedMs s.cfg s.now s.debLast ≤ zextTW s.cfg s.cfg.debounceMs →
      exec .debounceSample s = .next { s with event := none }) ∧
    (s.inp.btnN = false → s.debPressed = false →
      zextTW s.cfg s.cfg.debounceMs < elapsedMs s.cfg s.now s.debLast →
      exec .debounceSample s = .next { s with
        debPressed := true, debLast := s.now, event := some ⟨.pressed, s.now⟩,
        txOut := s.txOut ++ [.evt .pressed] }) ∧
    (s.inp.btnN = true → s.debPressed = true →
      zextTW s.cfg s.cfg.debounceMs < elapsedMs s.cfg s.now s.debLast →
      exec .debounceSample s = .next { s with
        debPressed := false, debLast := s.now, event := some ⟨.released, s.now⟩,
        txOut := s.txOut ++ [.evt .released] })

/-- R66: TX_HOLD changes nothing, and a held transmit side is TX_HOLD whatever else holds. -/
def Obligations.HoldChangesNothing : Prop :=
  ∀ s : State, s.cfg.legal = true →
    exec .txHold s = .next s ∧ (s.inp.toneBusy = true → txStep s = .next s)

/-- R67, R68: SYNC_EMIT sends the preamble symbol at `sync_idx`, as a tone request and a byte, and advances `sync_idx`. -/
def Obligations.SyncEmitSendsNextSymbol : Prop :=
  ∀ (s : State) (h : s.syncIdx < s.cfg.syncPattern.length), s.cfg.legal = true →
    (s.cfg.syncPattern[s.syncIdx] = .dot → exec .syncEmit s = .next { s with
      syncIdx := s.syncIdx + 1,
      txOut := s.txOut ++ [.tone .dot s.cfg.dotFreqHz s.cfg.dotToneMs, .tx 0x2E] }) ∧
    (s.cfg.syncPattern[s.syncIdx] = .dash → exec .syncEmit s = .next { s with
      syncIdx := s.syncIdx + 1,
      txOut := s.txOut ++ [.tone .dash s.cfg.dashFreqHz s.cfg.dashToneMs, .tx 0x2D] })

/-- R68: EMIT_SYMBOL requests the symbol's tone and sends its byte. That the table's rows TX_DOT and TX_DASH, as operations,
are EMIT_SYMBOL of their symbol is the model's reading, not R68's words (DEDUCED, log entry 10). -/
def Obligations.EmitSymbolDrivesToneAndByte : Prop :=
  ∀ s : State, s.cfg.legal = true →
    exec .txDot s = .next { s with
      txOut := s.txOut ++ [.tone .dot s.cfg.dotFreqHz s.cfg.dotToneMs, .tx 0x2E] } ∧
    exec .txDash s = .next { s with
      txOut := s.txOut ++ [.tone .dash s.cfg.dashFreqHz s.cfg.dashToneMs, .tx 0x2D] }

/-- R69: GAP_EVAL marks a WordGap or a CharGap that has no marker yet, and otherwise only classifies the gap. -/
def Obligations.GapEvalMarksUnmarkedGap : Prop :=
  ∀ s : State, s.cfg.legal = true →
    (s.gapMs ≤ zextTW s.cfg s.cfg.interCharGapMs →
      exec .gapEval s = .next { s with classOut := some .intraChar }) ∧
    (zextTW s.cfg s.cfg.interCharGapMs < s.gapMs → s.gapMs ≤ zextTW s.cfg s.cfg.wordGapMs →
      s.charMarked = false → exec .gapEval s = .next { s with
        classOut := some .charGap, charMarked := true, txOut := s.txOut ++ [.gap .charGap] }) ∧
    (zextTW s.cfg s.cfg.interCharGapMs < s.gapMs → s.gapMs ≤ zextTW s.cfg s.cfg.wordGapMs →
      s.charMarked = true → exec .gapEval s = .next { s with classOut := some .charGap }) ∧
    (zextTW s.cfg s.cfg.interCharGapMs < s.gapMs → zextTW s.cfg s.cfg.wordGapMs < s.gapMs →
      s.spaceAdded = false → exec .gapEval s = .next { s with
        classOut := some .wordGap, spaceAdded := true, charMarked := true, gapActive := false,
        txOut := s.txOut ++ [.gap .wordGap] }) ∧
    (zextTW s.cfg s.cfg.interCharGapMs < s.gapMs → zextTW s.cfg s.cfg.wordGapMs < s.gapMs →
      s.spaceAdded = true → exec .gapEval s = .next { s with classOut := some .wordGap })

/-- R70: a Pressed event in a released encoder starts a press at `now`. -/
def Obligations.PressedEventStartsPress : Prop :=
  ∀ s : State, s.cfg.legal = true → s.wasPressed = false →
    exec .evPressed s = .next { s with wasPressed := true, pressStart := s.now }

/-- R71, R68: a Released event after a press longer than DEBOUNCE_MS sends the Dot or Dash the press is, and starts a gap
at `now` with no marker; a bounce and a Noise press only clear `was_pressed` (R72), and without a press the event is ignored
(R73). -/
def Obligations.ReleasedEventSendsSymbol : Prop :=
  ∀ s : State, s.cfg.legal = true →
    (s.wasPressed = false → exec .evReleased s = .next s) ∧
    (s.wasPressed = true → elapsedMs s.cfg s.now s.pressStart ≤ zextTW s.cfg s.cfg.debounceMs →
      exec .evReleased s = .next { s with wasPressed := false }) ∧
    (s.wasPressed = true → zextTW s.cfg s.cfg.debounceMs < elapsedMs s.cfg s.now s.pressStart →
      (elapsedMs s.cfg s.now s.pressStart ≤ zextTW s.cfg s.cfg.dotThresholdMs →
        exec .evReleased s = .next { s with
          wasPressed := false, gapActive := true, releaseTime := s.now, charMarked := false, spaceAdded := false,
          classOut := some .dot,
          txOut := s.txOut ++ [.tone .dot s.cfg.dotFreqHz s.cfg.dotToneMs, .tx 0x2E] }) ∧
      (zextTW s.cfg s.cfg.dotThresholdMs < elapsedMs s.cfg s.now s.pressStart →
        elapsedMs s.cfg s.now s.pressStart ≤ zextTW s.cfg s.cfg.dashThresholdMs →
        exec .evReleased s = .next { s with
          wasPressed := false, gapActive := true, releaseTime := s.now, charMarked := false, spaceAdded := false,
          classOut := some .dash,
          txOut := s.txOut ++ [.tone .dash s.cfg.dashFreqHz s.cfg.dashToneMs, .tx 0x2D] }) ∧
      (zextTW s.cfg s.cfg.dotThresholdMs < elapsedMs s.cfg s.now s.pressStart →
        zextTW s.cfg s.cfg.dashThresholdMs < elapsedMs s.cfg s.now s.pressStart →
        exec .evReleased s = .next { s with wasPressed := false, classOut := some .noise }))

/-- R72: a bounce and a Noise press are discarded: nothing but `was_pressed` is cleared and nothing is emitted. That DISCARD
by itself does exactly that (the first clause) is the model's reading: R72 says that R71 has already done the write
(DEDUCED, log entry 11). -/
def Obligations.DiscardOnlyClearsWasPressed : Prop :=
  ∀ s : State, s.cfg.legal = true →
    exec .discard s = .next { s with wasPressed := false } ∧
    (s.wasPressed = true → elapsedMs s.cfg s.now s.pressStart ≤ zextTW s.cfg s.cfg.debounceMs →
      exec .evReleased s = .next { s with wasPressed := false }) ∧
    (s.wasPressed = true → zextTW s.cfg s.cfg.debounceMs < elapsedMs s.cfg s.now s.pressStart →
      classifySignal s.cfg (elapsedMs s.cfg s.now s.pressStart) = .noise →
      exec .evReleased s = .next { s with wasPressed := false, classOut := some .noise })

/-- R73: an event that does not fit the encoder state is ignored. -/
def Obligations.MismatchedEventIsIgnored : Prop :=
  ∀ s : State, s.cfg.legal = true →
    (s.wasPressed = true → exec .evPressed s = .next s) ∧
    (s.wasPressed = false → exec .evReleased s = .next s)

/-! ### The step -/

/-- R77, R42: in a step without reset, the receive side runs the character timeout, the word timeout, and then the command
that the step's byte encodes, if there is a byte, after the transmit side. -/
def Obligations.StepRunsTheDecodedCommand : Prop :=
  ∀ s : State, s.nextInputs.rst = false →
    (∀ i : Instr, i.wellFormed s.cfg = true → s.nextInputs.rxValid = true →
      encode i = some s.nextInputs.rxByte →
      step s = andThen (txStep s.sample) (fun t =>
        andThen (exec .charTimeout t) (fun u => andThen (exec .wordTimeout u) (exec i)))) ∧
    (s.nextInputs.rxValid = false →
      step s = andThen (txStep s.sample) (fun t => andThen (exec .charTimeout t) (exec .wordTimeout)))

/-- R65: the transmit side runs TX_HOLD while the tone sink is busy, else one SYNC_EMIT while the preamble runs, else
GAP_EVAL where it is selected, then DEBOUNCE_SAMPLE, then the encoder on its event. -/
def Obligations.TransmitSideOrder : Prop :=
  ∀ s : State, s.cfg.legal = true →
    (s.inp.toneBusy = true → txStep s = exec .txHold s) ∧
    (s.inp.toneBusy = false → s.syncIdx < s.cfg.syncLen → txStep s = exec .syncEmit s) ∧
    (s.inp.toneBusy = false → s.cfg.syncLen ≤ s.syncIdx → ∀ g d : State,
      ((s.wasPressed = false ∧ s.gapActive = true ∧ exec .gapEval s = .next g) ∨
        (¬ (s.wasPressed = false ∧ s.gapActive = true) ∧ g = s)) →
      exec .debounceSample g = .next d →
      (d.event = none → txStep s = .next d) ∧
      (∀ k, d.event = some ⟨.pressed, k⟩ → txStep s = exec .evPressed d) ∧
      (∀ k, d.event = some ⟨.released, k⟩ → txStep s = exec .evReleased d))

/-- R95, R6, R5: under a legal configuration every input, in every state, has a next state: no step faults or is refused. That
the table has a pattern is R90's "MAXLEN ≥ 1" (log entry 6). -/
def Obligations.EveryStepCompletes : Prop :=
  ∀ s : State, 1 ≤ s.cfg.tickWidth → 1 ≤ s.cfg.ticksPerMs → s.cfg.ticksPerMs < 2 ^ s.cfg.tickWidth →
    s.cfg.syncPattern.length ≤ 255 →
    s.cfg.dotThresholdMs.toNat < s.cfg.dashThresholdMs.toNat →
    s.cfg.interCharGapMs.toNat < s.cfg.wordGapMs.toNat →
    s.cfg.decodeTable ≠ [] →
    (∀ r ∈ s.cfg.decodeTable, r.pattern ≠ [] ∧ r.pattern.length ≤ s.cfg.morseCap) →
    (s.cfg.decodeTable.map (fun r => r.pattern)).Nodup →
    ∃ t, step s = .next t

/-- R6: under an illegal configuration the model gives the block no behaviour: no step and no operation has a next
state. -/
def Obligations.IllegalConfigurationIsRefused : Prop :=
  ∀ s : State,
    (¬ s.cfg.dotThresholdMs.toNat < s.cfg.dashThresholdMs.toNat ∨
      ¬ s.cfg.interCharGapMs.toNat < s.cfg.wordGapMs.toNat ∨
      s.cfg.ticksPerMs = 0 ∨
      (∃ r ∈ s.cfg.decodeTable, r.pattern = [] ∨ s.cfg.morseCap < r.pattern.length) ∨
      ¬ (s.cfg.decodeTable.map (fun r => r.pattern)).Nodup) →
    step s = .refused .illegalConfiguration ∧ ∀ i, exec i s = .refused .illegalConfiguration

/-- R13, R106: along every path of steps the configuration stays as it is. -/
def Obligations.ConfigurationIsFixedForASession : Prop :=
  ∀ s t : State, Steps (fun _ => True) s t → t.cfg = s.cfg

/-! ### Invariants -/

/-- Every step keeps the invariant: a legal configuration, registers in range, R75, R90 and R94. -/
def Obligations.StepKeepsInv : Prop :=
  ∀ s t : State, s.Inv → step s = .next t → t.Inv

/-- The invariant holds at the model's reset state, under the defaults of R5 (its tick is the model's choice: log entry 1). -/
def Obligations.ResetStateHasInv : Prop := State.reset.Inv

/-- A reset step establishes the invariant from any state under a legal configuration (R104). -/
def Obligations.ResetStepEstablishesInv : Prop :=
  ∀ s t : State, s.nextInputs.rst = true → step s = .next t → t.Inv

/-- R7: the derived constants of the defaults, and that `sync_idx` and `buf_len` fit their widths in every state of the
invariant. -/
def Obligations.RegistersFitTheirWidths : Prop :=
  defaultCfg.maxLen = 4 ∧ defaultCfg.syncLen = 9 ∧ defaultCfg.syncIdxWidth = 4 ∧ defaultCfg.bufLenWidth = 3 ∧
  ∀ s : State, s.Inv → s.syncIdx < 2 ^ s.cfg.syncIdxWidth ∧ s.bufLen < 2 ^ s.cfg.bufLenWidth

/-- R90: `accumulating = 1` exactly when `buf_len ≥ 1`: a reset step establishes it, and every step keeps it; where it holds,
the `buf_len > 0` test of R81 is implied by its `accumulating` test. -/
def Obligations.AccumulatingIffBuffered : Prop :=
  (∀ s t : State, step s = .next t →
    (s.nextInputs.rst = true → (t.accumulating = true ↔ 1 ≤ t.bufLen)) ∧
    ((s.accumulating = true ↔ 1 ≤ s.bufLen) → (t.accumulating = true ↔ 1 ≤ t.bufLen))) ∧
  (∀ s : State, s.cfg.legal = true → (s.accumulating = true ↔ 1 ≤ s.bufLen) → s.accumulating = true →
    0 < s.bufLen ∧ exec .rxCharEnd s = .next s.decodeAndClear)

/-- R94: `space_emitted = NOT in_word`: a reset step establishes it, every step keeps it, and where it holds `W`, `w` and
`O` have the same effect. -/
def Obligations.SpaceEmittedIsNotInWord : Prop :=
  (∀ s t : State, step s = .next t →
    (s.nextInputs.rst = true → t.spaceEmitted = !t.inWord) ∧
    (s.spaceEmitted = (!s.inWord) → t.spaceEmitted = !t.inWord)) ∧
  (∀ s : State, s.spaceEmitted = (!s.inWord) →
    exec .rxWordEnd s = exec .rxSoftWordFlush s ∧ exec .rxWordEndLower s = exec .rxSoftWordFlush s ∧
    (s.inWord = true → s.spaceEmitted = false))

/-! ### The transmit side over whole steps -/

/-- R74: a step emits at most one of a symbol and a gap marker; a tone request and a serial byte go together; at most one
debounced event. -/
def Obligations.TransmitEmitsSymbolOrMarker : Prop :=
  ∀ s t : State, step s = .next t →
    t.txOut.countP TxEmit.isTx + t.txOut.countP TxEmit.isGap ≤ 1 ∧
    t.txOut.countP TxEmit.isTone = t.txOut.countP TxEmit.isTx ∧
    t.txOut.countP TxEmit.isEvt ≤ 1

/-- R68, R11, R44, R47 on the port lines: the tone request and the serial byte of a step are valid together and are of one
symbol, with that symbol's frequency and duration. -/
def Obligations.TonePortMatchesSerialByte : Prop :=
  ∀ s t : State, step s = .next t →
    (t.tonePort = none ∧ t.txPort = none) ∨
    (t.tonePort = some (0, t.cfg.dotFreqHz, t.cfg.dotToneMs) ∧ t.txPort = some 0x2E) ∨
    (t.tonePort = some (1, t.cfg.dashFreqHz, t.cfg.dashToneMs) ∧ t.txPort = some 0x2D)

/-- R44: the transmit side drives no byte value but `'.'` and `'-'`. -/
def Obligations.OnlyDotAndDashBytesAreSent : Prop :=
  ∀ (s t : State) (b : Byte), step s = .next t → TxEmit.tx b ∈ t.txOut → b = 0x2E ∨ b = 0x2D

/-- R63: two accepted transitions are more than DEBOUNCE_MS apart: after a step with an event, however many steps without
one pass, the next event comes only when more than DEBOUNCE_MS have passed since. -/
def Obligations.AcceptedEventsAreAWindowApart : Prop :=
  ∀ s t u v : State, step s = .next t → t.event ≠ none → Steps State.Quiet t u → step u = .next v → v.event ≠ none →
    zextTW v.cfg v.cfg.debounceMs < elapsedMs v.cfg v.now t.now

/-- R64: each accepted event has the opposite edge of the one before it. -/
def Obligations.AcceptedEventsAlternate : Prop :=
  ∀ (s t u v : State) (e f : ButtonEvent), step s = .next t → t.event = some e → Steps State.Quiet t u →
    step u = .next v → v.event = some f → f.edge ≠ e.edge

/-- R64, R17: the first event after a reset step is Pressed, and comes only when more than DEBOUNCE_MS have passed since the
reset step. -/
def Obligations.FirstEventAfterResetIsPressed : Prop :=
  ∀ (s t u v : State) (f : ButtonEvent), s.nextInputs.rst = true → step s = .next t → Steps State.Quiet t u →
    step u = .next v → v.event = some f →
    f.edge = .pressed ∧ zextTW v.cfg v.cfg.debounceMs < elapsedMs v.cfg v.now t.now

/-- R75: from a state of the invariant no event is mismatched, and every Released event ends a press that began at
`deb_last` and is longer than DEBOUNCE_MS: the bounce branch of R72 is not taken. -/
def Obligations.EveryEventFitsTheEncoder : Prop :=
  ∀ (s t : State) (e : ButtonEvent), s.Inv → step s = .next t → t.event = some e →
    (e.edge = .pressed → s.wasPressed = false ∧ t.wasPressed = true ∧ t.pressStart = t.now) ∧
    (e.edge = .released → s.wasPressed = true ∧ t.wasPressed = false ∧ s.pressStart = s.debLast ∧
      zextTW t.cfg t.cfg.debounceMs < elapsedMs t.cfg t.now s.pressStart)

/-- R69: each marker is emitted at most once per gap: after a step with a CharGap marker none, and after one with a WordGap
marker neither, until a symbol is sent. -/
def Obligations.EachMarkerOncePerGap : Prop :=
  ∀ (s t u v : State) (k : GapKind), step s = .next t → TxEmit.gap k ∈ t.txOut →
    Steps (fun x => x.sentSymbol = false ∧ x.inp.rst = false) t u → step u = .next v →
    TxEmit.gap k ∉ v.txOut ∧ (k = .wordGap → TxEmit.gap .charGap ∉ v.txOut)

/-- R67, R105, R51: after a reset step, along any steps without reset of which at most SYNC_LEN are not held, the
transmit side sends the first symbols of SYNC_PATTERN, one in each step that is not held, and emits neither an event nor a
gap marker. -/
def Obligations.PreambleSendsTheSyncPattern : Prop :=
  ∀ (s t : State) (n : Nat), s.nextInputs.rst = true → step s = .next t →
    (∀ x ∈ trace n t, x.inp.rst = false) →
    (trace n t).countP (fun x => !x.inp.toneBusy) ≤ t.cfg.syncLen →
    (trace n t).flatMap State.txBytes =
      (t.cfg.syncPattern.take ((trace n t).countP (fun x => !x.inp.toneBusy))).map byteOf ∧
    ∀ x ∈ trace n t, ∀ e ∈ x.txOut, e.isEvt = false ∧ e.isGap = false

/-- R66, R112: however long the tone sink stays busy, the transmit side keeps every register and emits nothing. -/
def Obligations.BusySinkFreezesTransmitSide : Prop :=
  ∀ s t : State, Steps (fun x => x.inp.toneBusy = true ∧ x.inp.rst = false) s t →
    SameTx s t ∧ ∀ u, step t = .next u → u.inp.toneBusy = true → u.txOut = [] ∧ u.event = none

/-! ### The receive side over whole steps -/

/-- R87: LOOKUP answers the code of the row whose pattern is the buffer, and Unknown where no row's is. -/
def Obligations.LookupIsExactMatch : Prop :=
  ∀ (c : Cfg) (buf : List DotDash) (n : Nat), c.legal = true → n ≤ buf.length →
    (∀ r ∈ c.decodeTable, r.pattern = buf.take n → lookup c buf n = (.letter, r.code)) ∧
    ((∀ r ∈ c.decodeTable, r.pattern ≠ buf.take n) → lookup c buf n = (.unknown, c.unknownCode))

open Sys2Proof.DotDash in
/-- R49: under the default table each of R49's 26 patterns, written out here from its pattern cells, decodes to its letter's
code, whatever the buffer holds beyond the pattern. The pairing is from general knowledge, as the spec says (log entry 13); for
Z it is the row's pattern, not its bits cell, the model's choice (log entry 16). -/
def Obligations.DefaultTableDecodesItsLetters : Prop :=
  ∀ rest : List DotDash,
  lookup defaultCfg (dot :: dash :: rest) 2 = (.letter, 0x41) ∧
  lookup defaultCfg (dash :: dot :: dot :: dot :: rest) 4 = (.letter, 0x42) ∧
  lookup defaultCfg (dash :: dot :: dash :: dot :: rest) 4 = (.letter, 0x43) ∧
  lookup defaultCfg (dash :: dot :: dot :: rest) 3 = (.letter, 0x44) ∧
  lookup defaultCfg (dot :: rest) 1 = (.letter, 0x45) ∧
  lookup defaultCfg (dot :: dot :: dash :: dot :: rest) 4 = (.letter, 0x46) ∧
  lookup defaultCfg (dash :: dash :: dot :: rest) 3 = (.letter, 0x47) ∧
  lookup defaultCfg (dot :: dot :: dot :: dot :: rest) 4 = (.letter, 0x48) ∧
  lookup defaultCfg (dot :: dot :: rest) 2 = (.letter, 0x49) ∧
  lookup defaultCfg (dot :: dash :: dash :: dash :: rest) 4 = (.letter, 0x4A) ∧
  lookup defaultCfg (dash :: dot :: dash :: rest) 3 = (.letter, 0x4B) ∧
  lookup defaultCfg (dot :: dash :: dot :: dot :: rest) 4 = (.letter, 0x4C) ∧
  lookup defaultCfg (dash :: dash :: rest) 2 = (.letter, 0x4D) ∧
  lookup defaultCfg (dash :: dot :: rest) 2 = (.letter, 0x4E) ∧
  lookup defaultCfg (dash :: dash :: dash :: rest) 3 = (.letter, 0x4F) ∧
  lookup defaultCfg (dot :: dash :: dash :: dot :: rest) 4 = (.letter, 0x50) ∧
  lookup defaultCfg (dash :: dash :: dot :: dash :: rest) 4 = (.letter, 0x51) ∧
  lookup defaultCfg (dot :: dash :: dot :: rest) 3 = (.letter, 0x52) ∧
  lookup defaultCfg (dot :: dot :: dot :: rest) 3 = (.letter, 0x53) ∧
  lookup defaultCfg (dash :: rest) 1 = (.letter, 0x54) ∧
  lookup defaultCfg (dot :: dot :: dash :: rest) 3 = (.letter, 0x55) ∧
  lookup defaultCfg (dot :: dot :: dot :: dash :: rest) 4 = (.letter, 0x56) ∧
  lookup defaultCfg (dot :: dash :: dash :: rest) 3 = (.letter, 0x57) ∧
  lookup defaultCfg (dash :: dot :: dot :: dash :: rest) 4 = (.letter, 0x58) ∧
  lookup defaultCfg (dash :: dot :: dash :: dash :: rest) 4 = (.letter, 0x59) ∧
  lookup defaultCfg (dash :: dash :: dot :: dot :: rest) 4 = (.letter, 0x5A)

/-- R48: the received character port carries kind 0 with the code of a row of DECODE_TABLE, or kind 1 with
UNKNOWN_CODE. -/
def Obligations.CharacterPortIsLetterOrUnknown : Prop :=
  ∀ (s t : State) (k : BitVec 1) (b : Byte), step s = .next t → t.rxCharPort = some (k, b) →
    (k = 0 ∧ ∃ r ∈ t.cfg.decodeTable, r.code = b) ∨ (k = 1 ∧ b = t.cfg.unknownCode)

/-- R87: a buffer longer than the longest pattern is always Unknown. -/
def Obligations.OverlongBufferIsUnknown : Prop :=
  ∀ (c : Cfg) (buf : List DotDash) (n : Nat), c.maxLen < n → lookup c buf n = (.unknown, c.unknownCode)

/-- R76: a letter's pattern, each symbol sent for as long as its tone and reclassified from that, received as bytes and
ended with `C`, is decoded to the letter. The tone durations are TW-bit durations, as the operand of R54 is. -/
def Obligations.LetterRoundTrip : Prop :=
  ∀ (s : State) (r : DecodeRow), s.cfg.legal = true → s.cfg.dashToneMs.toNat < 2 ^ s.cfg.tickWidth →
    s.cfg.debounceMs.toNat < s.cfg.dotToneMs.toNat → s.cfg.dotToneMs.toNat ≤ s.cfg.dotThresholdMs.toNat →
    s.cfg.dotThresholdMs.toNat < s.cfg.dashToneMs.toNat → s.cfg.dashToneMs.toNat ≤ s.cfg.dashThresholdMs.toNat →
    s.accumulating = false → s.buf.length = s.cfg.morseCap → r ∈ s.cfg.decodeTable →
    (∀ y, zextTW s.cfg s.cfg.debounceMs < (toneMsOf s.cfg y).toNat ∧
      symOfClass (classifySignal s.cfg (toneMsOf s.cfg y).toNat) = some y) ∧
    ∃ t, execAll
        (((r.pattern.filterMap (fun y => symOfClass (classifySignal s.cfg (toneMsOf s.cfg y).toNat))).map
          (fun y => decodeByte (byteOf y))) ++ [.rxCharEnd]) s = .next t ∧
      t.rxOut = s.rxOut ++ [.char .letter r.code] ∧ t.accumulating = false ∧ t.bufLen = 0 ∧ t.txOut = s.txOut

/-- R92, R93: a step emits at most one character and at most one space, and the character before the space. -/
def Obligations.CharacterComesBeforeSpace : Prop :=
  ∀ s t : State, step s = .next t →
    t.rxOut = [] ∨ (∃ k b, t.rxOut = [.char k b]) ∨ t.rxOut = [.space] ∨
    ∃ k b, t.rxOut = [.char k b, .space]

/-- R92: at most one character and at most one space in a step, under every legal configuration. -/
def Obligations.ReceiveEmitsAtMostOneOfEach : Prop :=
  ∀ s t : State, step s = .next t →
    t.rxOut.countP RxEmit.isChar ≤ 1 ∧ t.rxOut.countP RxEmit.isSpace ≤ 1

/-- R91: no buffer is decoded twice. A step that emits a character had one pending, and after it no step emits another
before a Dot or Dash byte is received. -/
def Obligations.NoBufferIsDecodedTwice : Prop :=
  ∀ s t u v : State, step s = .next t → t.sentChar = true → s.accumulating = true ∧
    (t.gotSignal = false → Steps (fun x => x.gotSignal = false) t u → step u = .next v → v.sentChar = false)

/-- R110: a tick that goes back by `k` ticks, where that looks longer than WORD_GAP_MS, matures both receive timeouts: the
pending character is emitted, then the space. -/
def Obligations.BackwardsTickMaturesBothTimeouts : Prop :=
  ∀ (s : State) (k : Nat), s.cfg.legal = true →
    s.lastSignal < 2 ^ s.cfg.tickWidth → 0 < k → s.now + k = s.lastSignal →
    s.cfg.wordGapMs.toNat < (2 ^ s.cfg.tickWidth - k) / s.cfg.ticksPerMs →
    s.accumulating = true → s.inWord = true → s.spaceEmitted = false → s.inp.rxValid = false →
    rxStep s = .next { s with
      rxOut := s.rxOut ++
        [.char (lookup s.cfg s.buf s.bufLen).1 (lookup s.cfg s.buf s.bufLen).2, .space],
      bufLen := 0, accumulating := false, inWord := false, spaceEmitted := true }

/-! ### The two sides, and time -/

/-- R39: the two sides share no register, so their order inside a step does not matter. -/
def Obligations.SidesRunInEitherOrder : Prop :=
  ∀ s : State, andThen (txStep s) rxStep = andThen (rxStep s) txStep

/-- R89: the receive side does the same whatever the tone sink, the button and the transmit side are doing. -/
def Obligations.ReceiveSideIgnoresTransmitSide : Prop :=
  ∀ s t s' t' : State, SameRx s t → SameRxInputs s.nextInputs t.nextInputs →
    step s = .next s' → step t = .next t' → SameRx s' t' ∧ s'.rxOut = t'.rxOut

/-- R39: the transmit side does the same whatever bytes arrive and whatever the receive side is doing. -/
def Obligations.TransmitSideIgnoresReceiveSide : Prop :=
  ∀ s t s' t' : State, SameTx s t → SameTxInputs s.nextInputs t.nextInputs →
    step s = .next s' → step t = .next t' → SameTx s' t' ∧ s'.txOut = t'.txOut ∧ s'.event = t'.event

/-- R8: `elapsed_ms` on TW-bit ticks is the wrapping subtraction, divided; its result is a TW-bit value. -/
def Obligations.ElapsedIsWrappingSubtraction : Prop :=
  ∀ (c : Cfg) (now since : Tick), c.legal = true → now < 2 ^ c.tickWidth → since < 2 ^ c.tickWidth →
    elapsedMs c now since = ((now + (2 ^ c.tickWidth - since)) % 2 ^ c.tickWidth) / c.ticksPerMs ∧
    elapsedMs c now since < 2 ^ c.tickWidth

/-- R110: where the tick has not gone back the elapsed time is the true one, truncated; and a single wrap of the counter is
handled correctly for an interval below 2^TW ticks. -/
def Obligations.ElapsedIsTrueAcrossOneWrap : Prop :=
  ∀ (c : Cfg) (t0 t1 : Nat), c.legal = true → t0 ≤ t1 → t1 - t0 < 2 ^ c.tickWidth →
    elapsedMs c (t1 % 2 ^ c.tickWidth) (t0 % 2 ^ c.tickWidth) = (t1 - t0) / c.ticksPerMs

/-- The model's reading of R6 and R90 (DEDUCED, log entry 6): a configuration whose decode table is empty has no longest
pattern, so it is not legal, and no step and no operation has a next state under it. -/
def Obligations.EmptyTableIsRefused : Prop :=
  ∀ s : State, s.cfg.decodeTable = [] →
    step s = .refused .illegalConfiguration ∧ ∀ i, exec i s = .refused .illegalConfiguration
end

