-- ==== Sys2Proof/Laws/State.lean ====
section
/-! SUPPORT. The small lemmas of the updates of `State`: one per field per update, true by `rfl`. -/

namespace Sys2Proof.Machine

section
variable (s : State)

/-! `State.emitTx` -/
@[simp] theorem State.emitTx_cfg (e : TxEmit) : (s.emitTx e).cfg = s.cfg := rfl
@[simp] theorem State.emitTx_inp (e : TxEmit) : (s.emitTx e).inp = s.inp := rfl
@[simp] theorem State.emitTx_script (e : TxEmit) : (s.emitTx e).script = s.script := rfl
@[simp] theorem State.emitTx_debPressed (e : TxEmit) : (s.emitTx e).debPressed = s.debPressed := rfl
@[simp] theorem State.emitTx_debLast (e : TxEmit) : (s.emitTx e).debLast = s.debLast := rfl
@[simp] theorem State.emitTx_syncIdx (e : TxEmit) : (s.emitTx e).syncIdx = s.syncIdx := rfl
@[simp] theorem State.emitTx_wasPressed (e : TxEmit) : (s.emitTx e).wasPressed = s.wasPressed := rfl
@[simp] theorem State.emitTx_pressStart (e : TxEmit) : (s.emitTx e).pressStart = s.pressStart := rfl
@[simp] theorem State.emitTx_gapActive (e : TxEmit) : (s.emitTx e).gapActive = s.gapActive := rfl
@[simp] theorem State.emitTx_releaseTime (e : TxEmit) : (s.emitTx e).releaseTime = s.releaseTime := rfl
@[simp] theorem State.emitTx_charMarked (e : TxEmit) : (s.emitTx e).charMarked = s.charMarked := rfl
@[simp] theorem State.emitTx_spaceAdded (e : TxEmit) : (s.emitTx e).spaceAdded = s.spaceAdded := rfl
@[simp] theorem State.emitTx_accumulating (e : TxEmit) : (s.emitTx e).accumulating = s.accumulating := rfl
@[simp] theorem State.emitTx_inWord (e : TxEmit) : (s.emitTx e).inWord = s.inWord := rfl
@[simp] theorem State.emitTx_spaceEmitted (e : TxEmit) : (s.emitTx e).spaceEmitted = s.spaceEmitted := rfl
@[simp] theorem State.emitTx_lastSignal (e : TxEmit) : (s.emitTx e).lastSignal = s.lastSignal := rfl
@[simp] theorem State.emitTx_bufLen (e : TxEmit) : (s.emitTx e).bufLen = s.bufLen := rfl
@[simp] theorem State.emitTx_buf (e : TxEmit) : (s.emitTx e).buf = s.buf := rfl
@[simp] theorem State.emitTx_event (e : TxEmit) : (s.emitTx e).event = s.event := rfl
@[simp] theorem State.emitTx_classOut (e : TxEmit) : (s.emitTx e).classOut = s.classOut := rfl
@[simp] theorem State.emitTx_txOut (e : TxEmit) : (s.emitTx e).txOut = s.txOut ++ [e] := rfl
@[simp] theorem State.emitTx_rxOut (e : TxEmit) : (s.emitTx e).rxOut = s.rxOut := rfl
@[simp] theorem State.emitTx_now (e : TxEmit) : (s.emitTx e).now = s.now := rfl

/-! `State.emitRx` -/
@[simp] theorem State.emitRx_cfg (e : RxEmit) : (s.emitRx e).cfg = s.cfg := rfl
@[simp] theorem State.emitRx_inp (e : RxEmit) : (s.emitRx e).inp = s.inp := rfl
@[simp] theorem State.emitRx_script (e : RxEmit) : (s.emitRx e).script = s.script := rfl
@[simp] theorem State.emitRx_debPressed (e : RxEmit) : (s.emitRx e).debPressed = s.debPressed := rfl
@[simp] theorem State.emitRx_debLast (e : RxEmit) : (s.emitRx e).debLast = s.debLast := rfl
@[simp] theorem State.emitRx_syncIdx (e : RxEmit) : (s.emitRx e).syncIdx = s.syncIdx := rfl
@[simp] theorem State.emitRx_wasPressed (e : RxEmit) : (s.emitRx e).wasPressed = s.wasPressed := rfl
@[simp] theorem State.emitRx_pressStart (e : RxEmit) : (s.emitRx e).pressStart = s.pressStart := rfl
@[simp] theorem State.emitRx_gapActive (e : RxEmit) : (s.emitRx e).gapActive = s.gapActive := rfl
@[simp] theorem State.emitRx_releaseTime (e : RxEmit) : (s.emitRx e).releaseTime = s.releaseTime := rfl
@[simp] theorem State.emitRx_charMarked (e : RxEmit) : (s.emitRx e).charMarked = s.charMarked := rfl
@[simp] theorem State.emitRx_spaceAdded (e : RxEmit) : (s.emitRx e).spaceAdded = s.spaceAdded := rfl
@[simp] theorem State.emitRx_accumulating (e : RxEmit) : (s.emitRx e).accumulating = s.accumulating := rfl
@[simp] theorem State.emitRx_inWord (e : RxEmit) : (s.emitRx e).inWord = s.inWord := rfl
@[simp] theorem State.emitRx_spaceEmitted (e : RxEmit) : (s.emitRx e).spaceEmitted = s.spaceEmitted := rfl
@[simp] theorem State.emitRx_lastSignal (e : RxEmit) : (s.emitRx e).lastSignal = s.lastSignal := rfl
@[simp] theorem State.emitRx_bufLen (e : RxEmit) : (s.emitRx e).bufLen = s.bufLen := rfl
@[simp] theorem State.emitRx_buf (e : RxEmit) : (s.emitRx e).buf = s.buf := rfl
@[simp] theorem State.emitRx_event (e : RxEmit) : (s.emitRx e).event = s.event := rfl
@[simp] theorem State.emitRx_classOut (e : RxEmit) : (s.emitRx e).classOut = s.classOut := rfl
@[simp] theorem State.emitRx_txOut (e : RxEmit) : (s.emitRx e).txOut = s.txOut := rfl
@[simp] theorem State.emitRx_rxOut (e : RxEmit) : (s.emitRx e).rxOut = s.rxOut ++ [e] := rfl
@[simp] theorem State.emitRx_now (e : RxEmit) : (s.emitRx e).now = s.now := rfl

/-! `State.driveClass` -/
@[simp] theorem State.driveClass_cfg (k : ClassCode) : (s.driveClass k).cfg = s.cfg := rfl
@[simp] theorem State.driveClass_inp (k : ClassCode) : (s.driveClass k).inp = s.inp := rfl
@[simp] theorem State.driveClass_script (k : ClassCode) : (s.driveClass k).script = s.script := rfl
@[simp] theorem State.driveClass_debPressed (k : ClassCode) : (s.driveClass k).debPressed = s.debPressed := rfl
@[simp] theorem State.driveClass_debLast (k : ClassCode) : (s.driveClass k).debLast = s.debLast := rfl
@[simp] theorem State.driveClass_syncIdx (k : ClassCode) : (s.driveClass k).syncIdx = s.syncIdx := rfl
@[simp] theorem State.driveClass_wasPressed (k : ClassCode) : (s.driveClass k).wasPressed = s.wasPressed := rfl
@[simp] theorem State.driveClass_pressStart (k : ClassCode) : (s.driveClass k).pressStart = s.pressStart := rfl
@[simp] theorem State.driveClass_gapActive (k : ClassCode) : (s.driveClass k).gapActive = s.gapActive := rfl
@[simp] theorem State.driveClass_releaseTime (k : ClassCode) : (s.driveClass k).releaseTime = s.releaseTime := rfl
@[simp] theorem State.driveClass_charMarked (k : ClassCode) : (s.driveClass k).charMarked = s.charMarked := rfl
@[simp] theorem State.driveClass_spaceAdded (k : ClassCode) : (s.driveClass k).spaceAdded = s.spaceAdded := rfl
@[simp] theorem State.driveClass_accumulating (k : ClassCode) : (s.driveClass k).accumulating = s.accumulating := rfl
@[simp] theorem State.driveClass_inWord (k : ClassCode) : (s.driveClass k).inWord = s.inWord := rfl
@[simp] theorem State.driveClass_spaceEmitted (k : ClassCode) : (s.driveClass k).spaceEmitted = s.spaceEmitted := rfl
@[simp] theorem State.driveClass_lastSignal (k : ClassCode) : (s.driveClass k).lastSignal = s.lastSignal := rfl
@[simp] theorem State.driveClass_bufLen (k : ClassCode) : (s.driveClass k).bufLen = s.bufLen := rfl
@[simp] theorem State.driveClass_buf (k : ClassCode) : (s.driveClass k).buf = s.buf := rfl
@[simp] theorem State.driveClass_event (k : ClassCode) : (s.driveClass k).event = s.event := rfl
@[simp] theorem State.driveClass_classOut (k : ClassCode) : (s.driveClass k).classOut = some k := rfl
@[simp] theorem State.driveClass_txOut (k : ClassCode) : (s.driveClass k).txOut = s.txOut := rfl
@[simp] theorem State.driveClass_rxOut (k : ClassCode) : (s.driveClass k).rxOut = s.rxOut := rfl
@[simp] theorem State.driveClass_now (k : ClassCode) : (s.driveClass k).now = s.now := rfl

/-! `State.discard` -/
@[simp] theorem State.discard_cfg : (s.discard).cfg = s.cfg := rfl
@[simp] theorem State.discard_inp : (s.discard).inp = s.inp := rfl
@[simp] theorem State.discard_script : (s.discard).script = s.script := rfl
@[simp] theorem State.discard_debPressed : (s.discard).debPressed = s.debPressed := rfl
@[simp] theorem State.discard_debLast : (s.discard).debLast = s.debLast := rfl
@[simp] theorem State.discard_syncIdx : (s.discard).syncIdx = s.syncIdx := rfl
@[simp] theorem State.discard_wasPressed : (s.discard).wasPressed = false := rfl
@[simp] theorem State.discard_pressStart : (s.discard).pressStart = s.pressStart := rfl
@[simp] theorem State.discard_gapActive : (s.discard).gapActive = s.gapActive := rfl
@[simp] theorem State.discard_releaseTime : (s.discard).releaseTime = s.releaseTime := rfl
@[simp] theorem State.discard_charMarked : (s.discard).charMarked = s.charMarked := rfl
@[simp] theorem State.discard_spaceAdded : (s.discard).spaceAdded = s.spaceAdded := rfl
@[simp] theorem State.discard_accumulating : (s.discard).accumulating = s.accumulating := rfl
@[simp] theorem State.discard_inWord : (s.discard).inWord = s.inWord := rfl
@[simp] theorem State.discard_spaceEmitted : (s.discard).spaceEmitted = s.spaceEmitted := rfl
@[simp] theorem State.discard_lastSignal : (s.discard).lastSignal = s.lastSignal := rfl
@[simp] theorem State.discard_bufLen : (s.discard).bufLen = s.bufLen := rfl
@[simp] theorem State.discard_buf : (s.discard).buf = s.buf := rfl
@[simp] theorem State.discard_event : (s.discard).event = s.event := rfl
@[simp] theorem State.discard_classOut : (s.discard).classOut = s.classOut := rfl
@[simp] theorem State.discard_txOut : (s.discard).txOut = s.txOut := rfl
@[simp] theorem State.discard_rxOut : (s.discard).rxOut = s.rxOut := rfl
@[simp] theorem State.discard_now : (s.discard).now = s.now := rfl

/-! `State.emitSpace` -/
@[simp] theorem State.emitSpace_cfg : (s.emitSpace).cfg = s.cfg := rfl
@[simp] theorem State.emitSpace_inp : (s.emitSpace).inp = s.inp := rfl
@[simp] theorem State.emitSpace_script : (s.emitSpace).script = s.script := rfl
@[simp] theorem State.emitSpace_debPressed : (s.emitSpace).debPressed = s.debPressed := rfl
@[simp] theorem State.emitSpace_debLast : (s.emitSpace).debLast = s.debLast := rfl
@[simp] theorem State.emitSpace_syncIdx : (s.emitSpace).syncIdx = s.syncIdx := rfl
@[simp] theorem State.emitSpace_wasPressed : (s.emitSpace).wasPressed = s.wasPressed := rfl
@[simp] theorem State.emitSpace_pressStart : (s.emitSpace).pressStart = s.pressStart := rfl
@[simp] theorem State.emitSpace_gapActive : (s.emitSpace).gapActive = s.gapActive := rfl
@[simp] theorem State.emitSpace_releaseTime : (s.emitSpace).releaseTime = s.releaseTime := rfl
@[simp] theorem State.emitSpace_charMarked : (s.emitSpace).charMarked = s.charMarked := rfl
@[simp] theorem State.emitSpace_spaceAdded : (s.emitSpace).spaceAdded = s.spaceAdded := rfl
@[simp] theorem State.emitSpace_accumulating : (s.emitSpace).accumulating = s.accumulating := rfl
@[simp] theorem State.emitSpace_inWord : (s.emitSpace).inWord = false := rfl
@[simp] theorem State.emitSpace_spaceEmitted : (s.emitSpace).spaceEmitted = true := rfl
@[simp] theorem State.emitSpace_lastSignal : (s.emitSpace).lastSignal = s.lastSignal := rfl
@[simp] theorem State.emitSpace_bufLen : (s.emitSpace).bufLen = s.bufLen := rfl
@[simp] theorem State.emitSpace_buf : (s.emitSpace).buf = s.buf := rfl
@[simp] theorem State.emitSpace_event : (s.emitSpace).event = s.event := rfl
@[simp] theorem State.emitSpace_classOut : (s.emitSpace).classOut = s.classOut := rfl
@[simp] theorem State.emitSpace_txOut : (s.emitSpace).txOut = s.txOut := rfl
@[simp] theorem State.emitSpace_rxOut : (s.emitSpace).rxOut = s.rxOut ++ [.space] := rfl
@[simp] theorem State.emitSpace_now : (s.emitSpace).now = s.now := rfl

/-! `State.sample` -/
@[simp] theorem State.sample_cfg : (s.sample).cfg = s.cfg := rfl
@[simp] theorem State.sample_inp : (s.sample).inp = s.nextInputs := rfl
@[simp] theorem State.sample_script : (s.sample).script = s.script.tail := rfl
@[simp] theorem State.sample_debPressed : (s.sample).debPressed = s.debPressed := rfl
@[simp] theorem State.sample_debLast : (s.sample).debLast = s.debLast := rfl
@[simp] theorem State.sample_syncIdx : (s.sample).syncIdx = s.syncIdx := rfl
@[simp] theorem State.sample_wasPressed : (s.sample).wasPressed = s.wasPressed := rfl
@[simp] theorem State.sample_pressStart : (s.sample).pressStart = s.pressStart := rfl
@[simp] theorem State.sample_gapActive : (s.sample).gapActive = s.gapActive := rfl
@[simp] theorem State.sample_releaseTime : (s.sample).releaseTime = s.releaseTime := rfl
@[simp] theorem State.sample_charMarked : (s.sample).charMarked = s.charMarked := rfl
@[simp] theorem State.sample_spaceAdded : (s.sample).spaceAdded = s.spaceAdded := rfl
@[simp] theorem State.sample_accumulating : (s.sample).accumulating = s.accumulating := rfl
@[simp] theorem State.sample_inWord : (s.sample).inWord = s.inWord := rfl
@[simp] theorem State.sample_spaceEmitted : (s.sample).spaceEmitted = s.spaceEmitted := rfl
@[simp] theorem State.sample_lastSignal : (s.sample).lastSignal = s.lastSignal := rfl
@[simp] theorem State.sample_bufLen : (s.sample).bufLen = s.bufLen := rfl
@[simp] theorem State.sample_buf : (s.sample).buf = s.buf := rfl
@[simp] theorem State.sample_event : (s.sample).event = none := rfl
@[simp] theorem State.sample_classOut : (s.sample).classOut = none := rfl
@[simp] theorem State.sample_txOut : (s.sample).txOut = [] := rfl
@[simp] theorem State.sample_rxOut : (s.sample).rxOut = [] := rfl

/-! `State.decodeAndClear` -/
@[simp] theorem State.decodeAndClear_cfg : (s.decodeAndClear).cfg = s.cfg := rfl
@[simp] theorem State.decodeAndClear_inp : (s.decodeAndClear).inp = s.inp := rfl
@[simp] theorem State.decodeAndClear_script : (s.decodeAndClear).script = s.script := rfl
@[simp] theorem State.decodeAndClear_debPressed : (s.decodeAndClear).debPressed = s.debPressed := rfl
@[simp] theorem State.decodeAndClear_debLast : (s.decodeAndClear).debLast = s.debLast := rfl
@[simp] theorem State.decodeAndClear_syncIdx : (s.decodeAndClear).syncIdx = s.syncIdx := rfl
@[simp] theorem State.decodeAndClear_wasPressed : (s.decodeAndClear).wasPressed = s.wasPressed := rfl
@[simp] theorem State.decodeAndClear_pressStart : (s.decodeAndClear).pressStart = s.pressStart := rfl
@[simp] theorem State.decodeAndClear_gapActive : (s.decodeAndClear).gapActive = s.gapActive := rfl
@[simp] theorem State.decodeAndClear_releaseTime : (s.decodeAndClear).releaseTime = s.releaseTime := rfl
@[simp] theorem State.decodeAndClear_charMarked : (s.decodeAndClear).charMarked = s.charMarked := rfl
@[simp] theorem State.decodeAndClear_spaceAdded : (s.decodeAndClear).spaceAdded = s.spaceAdded := rfl
@[simp] theorem State.decodeAndClear_accumulating : (s.decodeAndClear).accumulating = false := rfl
@[simp] theorem State.decodeAndClear_inWord : (s.decodeAndClear).inWord = s.inWord := rfl
@[simp] theorem State.decodeAndClear_spaceEmitted : (s.decodeAndClear).spaceEmitted = s.spaceEmitted := rfl
@[simp] theorem State.decodeAndClear_lastSignal : (s.decodeAndClear).lastSignal = s.lastSignal := rfl
@[simp] theorem State.decodeAndClear_bufLen : (s.decodeAndClear).bufLen = 0 := rfl
@[simp] theorem State.decodeAndClear_buf : (s.decodeAndClear).buf = s.buf := rfl
@[simp] theorem State.decodeAndClear_event : (s.decodeAndClear).event = s.event := rfl
@[simp] theorem State.decodeAndClear_classOut : (s.decodeAndClear).classOut = s.classOut := rfl
@[simp] theorem State.decodeAndClear_txOut : (s.decodeAndClear).txOut = s.txOut := rfl
@[simp] theorem State.decodeAndClear_rxOut : (s.decodeAndClear).rxOut = s.rxOut ++ [.char (lookup s.cfg s.buf s.bufLen).1 (lookup s.cfg s.buf s.bufLen).2] := rfl
@[simp] theorem State.decodeAndClear_now : (s.decodeAndClear).now = s.now := rfl

/-! `State.resetRegisters` -/
@[simp] theorem State.resetRegisters_cfg : (s.resetRegisters).cfg = s.cfg := rfl
@[simp] theorem State.resetRegisters_inp : (s.resetRegisters).inp = s.inp := rfl
@[simp] theorem State.resetRegisters_script : (s.resetRegisters).script = s.script := rfl
@[simp] theorem State.resetRegisters_debPressed : (s.resetRegisters).debPressed = false := rfl
@[simp] theorem State.resetRegisters_debLast : (s.resetRegisters).debLast = s.now := rfl
@[simp] theorem State.resetRegisters_syncIdx : (s.resetRegisters).syncIdx = 0 := rfl
@[simp] theorem State.resetRegisters_wasPressed : (s.resetRegisters).wasPressed = false := rfl
@[simp] theorem State.resetRegisters_pressStart : (s.resetRegisters).pressStart = 0 := rfl
@[simp] theorem State.resetRegisters_gapActive : (s.resetRegisters).gapActive = false := rfl
@[simp] theorem State.resetRegisters_releaseTime : (s.resetRegisters).releaseTime = 0 := rfl
@[simp] theorem State.resetRegisters_charMarked : (s.resetRegisters).charMarked = false := rfl
@[simp] theorem State.resetRegisters_spaceAdded : (s.resetRegisters).spaceAdded = false := rfl
@[simp] theorem State.resetRegisters_accumulating : (s.resetRegisters).accumulating = false := rfl
@[simp] theorem State.resetRegisters_inWord : (s.resetRegisters).inWord = false := rfl
@[simp] theorem State.resetRegisters_spaceEmitted : (s.resetRegisters).spaceEmitted = true := rfl
@[simp] theorem State.resetRegisters_lastSignal : (s.resetRegisters).lastSignal = 0 := rfl
@[simp] theorem State.resetRegisters_bufLen : (s.resetRegisters).bufLen = 0 := rfl
@[simp] theorem State.resetRegisters_buf : (s.resetRegisters).buf = List.replicate s.cfg.morseCap .dot := rfl
@[simp] theorem State.resetRegisters_event : (s.resetRegisters).event = none := rfl
@[simp] theorem State.resetRegisters_classOut : (s.resetRegisters).classOut = none := rfl
@[simp] theorem State.resetRegisters_txOut : (s.resetRegisters).txOut = [] := rfl
@[simp] theorem State.resetRegisters_rxOut : (s.resetRegisters).rxOut = [] := rfl
@[simp] theorem State.resetRegisters_now : (s.resetRegisters).now = s.now := rfl

/-! `State.emitSymbol` (R68) -/
@[simp] theorem State.emitSymbol_cfg (y : DotDash) : (s.emitSymbol y).cfg = s.cfg := rfl
@[simp] theorem State.emitSymbol_inp (y : DotDash) : (s.emitSymbol y).inp = s.inp := rfl
@[simp] theorem State.emitSymbol_script (y : DotDash) : (s.emitSymbol y).script = s.script := rfl
@[simp] theorem State.emitSymbol_debPressed (y : DotDash) : (s.emitSymbol y).debPressed = s.debPressed := rfl
@[simp] theorem State.emitSymbol_debLast (y : DotDash) : (s.emitSymbol y).debLast = s.debLast := rfl
@[simp] theorem State.emitSymbol_syncIdx (y : DotDash) : (s.emitSymbol y).syncIdx = s.syncIdx := rfl
@[simp] theorem State.emitSymbol_wasPressed (y : DotDash) : (s.emitSymbol y).wasPressed = s.wasPressed := rfl
@[simp] theorem State.emitSymbol_pressStart (y : DotDash) : (s.emitSymbol y).pressStart = s.pressStart := rfl
@[simp] theorem State.emitSymbol_gapActive (y : DotDash) : (s.emitSymbol y).gapActive = s.gapActive := rfl
@[simp] theorem State.emitSymbol_releaseTime (y : DotDash) : (s.emitSymbol y).releaseTime = s.releaseTime := rfl
@[simp] theorem State.emitSymbol_charMarked (y : DotDash) : (s.emitSymbol y).charMarked = s.charMarked := rfl
@[simp] theorem State.emitSymbol_spaceAdded (y : DotDash) : (s.emitSymbol y).spaceAdded = s.spaceAdded := rfl
@[simp] theorem State.emitSymbol_accumulating (y : DotDash) : (s.emitSymbol y).accumulating = s.accumulating := rfl
@[simp] theorem State.emitSymbol_inWord (y : DotDash) : (s.emitSymbol y).inWord = s.inWord := rfl
@[simp] theorem State.emitSymbol_spaceEmitted (y : DotDash) : (s.emitSymbol y).spaceEmitted = s.spaceEmitted := rfl
@[simp] theorem State.emitSymbol_lastSignal (y : DotDash) : (s.emitSymbol y).lastSignal = s.lastSignal := rfl
@[simp] theorem State.emitSymbol_bufLen (y : DotDash) : (s.emitSymbol y).bufLen = s.bufLen := rfl
@[simp] theorem State.emitSymbol_buf (y : DotDash) : (s.emitSymbol y).buf = s.buf := rfl
@[simp] theorem State.emitSymbol_event (y : DotDash) : (s.emitSymbol y).event = s.event := rfl
@[simp] theorem State.emitSymbol_classOut (y : DotDash) : (s.emitSymbol y).classOut = s.classOut := rfl
@[simp] theorem State.emitSymbol_txOut (y : DotDash) : (s.emitSymbol y).txOut = s.txOut ++ [.tone y (freqOf s.cfg y) (toneMsOf s.cfg y), .tx (byteOf y)] := by simp [State.emitSymbol]
@[simp] theorem State.emitSymbol_rxOut (y : DotDash) : (s.emitSymbol y).rxOut = s.rxOut := rfl
@[simp] theorem State.emitSymbol_now (y : DotDash) : (s.emitSymbol y).now = s.now := rfl

end

end Sys2Proof.Machine
end

