-- ==== Sys2Proof/Laws/Ops.lean ====
section
/-! SUPPORT. What each shared operation can do, said once: the lemmas the proofs cite instead of unfolding it. -/

namespace Sys2Proof.Machine

/-- An operation answers a next state exactly under a legal configuration, and then its own (R6). -/
theorem becomes_eq_next_iff {s t u : State} : s.becomes t = .next u ↔ s.cfg.legal = true ∧ t = u := by
  unfold State.becomes
  split <;> simp_all

theorem becomes_of_legal {s : State} (h : s.cfg.legal = true) (t : State) : s.becomes t = .next t := by
  simp [State.becomes, h]

theorem becomes_of_not_legal {s : State} (h : s.cfg.legal = false) (t : State) :
    s.becomes t = .refused .illegalConfiguration := by
  simp [State.becomes, h]

@[simp] theorem andThen_next (s : State) (f : State → Result) : andThen (.next s) f = f s := rfl

@[simp] theorem andThen_refused (e : Refusal) (f : State → Result) : andThen (.refused e) f = .refused e := rfl

/-- A sequence answers a next state exactly where both statements do. -/
theorem andThen_eq_next_iff {r : Result} {f : State → Result} {u : State} :
    andThen r f = .next u ↔ ∃ t, r = .next t ∧ f t = .next u := by
  cases r <;> simp [andThen]

/-- Two operations in a row, of which the first leaves the configuration alone. -/
theorem andThen_becomes {s t : State} (h : t.cfg = s.cfg) (g : State → State) :
    andThen (s.becomes t) (fun u => u.becomes (g u)) = s.becomes (g t) := by
  unfold State.becomes
  split <;> simp_all

/-- `elapsed_ms` as R8 writes it, on TW-bit ticks. -/
theorem elapsedMs_eq {c : Cfg} {now since : Tick} (hn : now < 2 ^ c.tickWidth) (hs : since < 2 ^ c.tickWidth) :
    elapsedMs c now since = ((2 ^ c.tickWidth - since + now) % 2 ^ c.tickWidth) / c.ticksPerMs := by
  simp [elapsedMs, BitVec.toNat_sub, Nat.mod_eq_of_lt hn, Nat.mod_eq_of_lt hs]

/-- An elapsed time is a TW-bit value (R8). -/
theorem elapsedMs_lt (c : Cfg) (now since : Tick) : elapsedMs c now since < 2 ^ c.tickWidth :=
  Nat.lt_of_le_of_lt (Nat.div_le_self _ _) (BitVec.isLt _)

/-- A millisecond parameter that fits in TW bits is its own zero-extension (decision D37). -/
theorem zextTW_of_lt {c : Cfg} {v : BitVec 32} (h : v.toNat < 2 ^ c.tickWidth) : zextTW c v = v.toNat :=
  Nat.min_eq_left (Nat.le_sub_one_of_lt h)

/-- A zero-extension is a TW-bit value (R8). -/
theorem zextTW_lt (c : Cfg) (v : BitVec 32) : zextTW c v < 2 ^ c.tickWidth :=
  Nat.lt_of_le_of_lt (Nat.min_le_right _ _) (Nat.sub_lt (Nat.two_pow_pos _) Nat.one_pos)

/-- To compare a TW-bit duration with a zero-extension is to compare it with the parameter (R54, R55). -/
theorem le_zextTW_iff {c : Cfg} {v : BitVec 32} {d : Nat} (h : d < 2 ^ c.tickWidth) : d ≤ zextTW c v ↔ d ≤ v.toNat := by
  simp only [zextTW, Nat.le_min]
  omega

/-- To compare a zero-extension with a TW-bit duration is to compare the parameter with it (R61, R71, R78, R79). -/
theorem zextTW_lt_iff {c : Cfg} {v : BitVec 32} {d : Nat} (h : d < 2 ^ c.tickWidth) : zextTW c v < d ↔ v.toNat < d := by
  simpa only [Nat.not_le] using not_congr (le_zextTW_iff h)

/-- The zero-extension keeps the order of the parameters (R6, R93). -/
theorem zextTW_mono (c : Cfg) {v w : BitVec 32} (h : v.toNat ≤ w.toNat) : zextTW c v ≤ zextTW c w := by
  simp only [zextTW]
  omega

/-- It is the only TW-bit value that leaves a parameter that fits as it is and keeps the order of the parameters (log
entry 5). -/
theorem zextTW_unique (c : Cfg) (f : BitVec 32 → Nat) (hlt : ∀ v, f v < 2 ^ c.tickWidth)
    (hfit : ∀ v : BitVec 32, v.toNat < 2 ^ c.tickWidth → f v = v.toNat)
    (hmono : ∀ v w : BitVec 32, v.toNat < w.toNat → f v ≤ f w) (v : BitVec 32) : f v = zextTW c v := by
  by_cases h : v.toNat < 2 ^ c.tickWidth
  · rw [hfit v h, zextTW_of_lt h]
  · have hp : 0 < 2 ^ c.tickWidth := Nat.two_pow_pos _
    have hu : (BitVec.ofNat 32 (2 ^ c.tickWidth - 1)).toNat = 2 ^ c.tickWidth - 1 := by
      rw [BitVec.toNat_ofNat, Nat.mod_eq_of_lt]
      have := v.isLt
      omega
    have h1 := hmono (BitVec.ofNat 32 (2 ^ c.tickWidth - 1)) v (by omega)
    rw [hfit _ (by omega), hu] at h1
    have h2 := hlt v
    simp only [zextTW]
    omega

theorem now_lt (s : State) : s.now < 2 ^ s.cfg.tickWidth := Nat.mod_lt _ (Nat.two_pow_pos _)

/-- What LOOKUP can answer (R87): the code of a row whose pattern is the first `n` symbols, or Unknown where there is
none. -/
theorem lookup_cases (c : Cfg) (buf : List DotDash) (n : Nat) :
    (∃ r ∈ c.decodeTable, r.pattern.length = n ∧ buf.take n = r.pattern ∧ lookup c buf n = (.letter, r.code)) ∨
    ((∀ r ∈ c.decodeTable, ¬ (r.pattern.length = n ∧ buf.take n = r.pattern)) ∧
      lookup c buf n = (.unknown, c.unknownCode)) := by
  unfold lookup
  split
  · next r h =>
    have hp : r.pattern.length = n ∧ buf.take n = r.pattern := by simpa using List.find?_some h
    exact .inl ⟨r, List.mem_of_find?_eq_some h, hp.1, hp.2, rfl⟩
  · next h =>
    refine .inr ⟨fun r hr hc => ?_, rfl⟩
    simpa [hc.1, hc.2] using List.find?_eq_none.mp h r hr

/-- What RX_SIGNAL can do (R80), by whether a character is pending and the buffer has room. -/
theorem rxSignal_cases (s : State) (y : DotDash) :
    (s.accumulating = false ∧ 0 < s.cfg.morseCap ∧ s.rxSignal y =
      { s with accumulating := true, buf := s.buf.set 0 y, bufLen := 1, lastSignal := s.now, inWord := true,
               spaceEmitted := false }) ∨
    (s.accumulating = false ∧ s.cfg.morseCap = 0 ∧ s.rxSignal y =
      { s with accumulating := true, bufLen := 0, lastSignal := s.now, inWord := true, spaceEmitted := false }) ∨
    (s.accumulating = true ∧ s.bufLen < s.cfg.morseCap ∧ s.rxSignal y =
      { s with buf := s.buf.set s.bufLen y, bufLen := s.bufLen + 1, lastSignal := s.now, inWord := true,
               spaceEmitted := false }) ∨
    (s.accumulating = true ∧ s.cfg.morseCap ≤ s.bufLen ∧ s.rxSignal y =
      { s with lastSignal := s.now, inWord := true, spaceEmitted := false }) := by
  cases ha : s.accumulating
  · rcases Nat.eq_zero_or_pos s.cfg.morseCap with hc | hc
    · exact .inr (.inl ⟨rfl, hc, by simp [State.rxSignal, State.openChar, State.appendSym, ha, hc]⟩)
    · exact .inl ⟨rfl, hc, by simp [State.rxSignal, State.openChar, State.appendSym, ha, hc]⟩
  · rcases Nat.lt_or_ge s.bufLen s.cfg.morseCap with hc | hc
    · exact .inr (.inr (.inl ⟨rfl, hc, by simp [State.rxSignal, State.openChar, State.appendSym, ha, hc]⟩))
    · exact .inr (.inr (.inr ⟨rfl, hc, by
        simp [State.rxSignal, State.openChar, State.appendSym, ha, Nat.not_lt.mpr hc]⟩))

/-- What RX_CHAR_END can do (R81). -/
theorem rxCharEnd_cases (s : State) :
    (0 < s.bufLen ∧ s.accumulating = true ∧ s.rxCharEnd = s.decodeAndClear) ∨
    ((s.bufLen = 0 ∨ s.accumulating = false) ∧ s.rxCharEnd = s) := by
  unfold State.rxCharEnd
  split
  · next h => exact .inl ⟨h.1, h.2, rfl⟩
  · next h => exact .inr ⟨by rcases Nat.eq_zero_or_pos s.bufLen with h0 | h0 <;> simp_all, rfl⟩

/-- What RX_WORD_END can do (R83). -/
theorem rxWordEnd_cases (s : State) :
    (s.inWord = true ∧ s.spaceEmitted = false ∧ s.rxWordEnd = s.emitSpace) ∨
    ((s.inWord = false ∨ s.spaceEmitted = true) ∧ s.rxWordEnd = s) := by
  unfold State.rxWordEnd
  split
  · next h => exact .inl ⟨h.1, h.2, rfl⟩
  · next h => exact .inr ⟨by cases hw : s.inWord <;> simp_all, rfl⟩

/-- What DEBOUNCE_SAMPLE can do (R61): accept a candidate after the window, or change nothing but the event wire. -/
theorem debounceSample_cases (s : State) :
    (s.pressedRaw ≠ s.debPressed ∧ s.debounceOpen = true ∧ s.debounceSample = s.acceptEdge) ∨
    ((s.pressedRaw = s.debPressed ∨ s.debounceOpen = false) ∧ s.debounceSample = { s with event := none }) := by
  unfold State.debounceSample
  split
  · next h => exact .inr ⟨.inl h, rfl⟩
  · split
    · next h h' => exact .inl ⟨h, h', rfl⟩
    · next h h' => exact .inr ⟨.inr (by simpa using h'), rfl⟩

/-- What GAP_EVAL can do after the class `k` of the silence (R69). -/
theorem markGap_cases (s : State) (k : ClassCode) :
    (k = .wordGap ∧ s.spaceAdded = false ∧ s.markGap k =
      { s with txOut := s.txOut ++ [.gap .wordGap], spaceAdded := true, charMarked := true, gapActive := false }) ∨
    (k = .charGap ∧ s.charMarked = false ∧ s.markGap k =
      { s with txOut := s.txOut ++ [.gap .charGap], charMarked := true }) ∨
    ((k = .wordGap → s.spaceAdded = true) ∧ (k = .charGap → s.charMarked = true) ∧ s.markGap k = s) := by
  unfold State.markGap
  split
  · next h => exact .inl ⟨h.1, h.2, rfl⟩
  · split
    · next h => exact .inr (.inl ⟨h.1, h.2, rfl⟩)
    · exact .inr (.inr ⟨by simp_all, by simp_all, rfl⟩)

/-- What EV_RELEASED can do (R71–R73): ignore the event, send a symbol, or discard the press. -/
theorem evReleased_cases (s : State) :
    (s.wasPressed = false ∧ s.evReleased = s) ∨
    (s.wasPressed = true ∧ zextTW s.cfg s.cfg.debounceMs < s.pressMs ∧
      ∃ y, symOfClass (classifySignal s.cfg s.pressMs) = some y ∧ s.evReleased =
        { s with wasPressed := false, classOut := some (classifySignal s.cfg s.pressMs), gapActive := true,
                 releaseTime := s.now, charMarked := false, spaceAdded := false,
                 txOut := s.txOut ++ [.tone y (freqOf s.cfg y) (toneMsOf s.cfg y), .tx (byteOf y)] }) ∨
    (s.wasPressed = true ∧ zextTW s.cfg s.cfg.debounceMs < s.pressMs ∧ classifySignal s.cfg s.pressMs = .noise ∧
      s.evReleased = { s with wasPressed := false, classOut := some .noise }) ∨
    (s.wasPressed = true ∧ s.pressMs ≤ zextTW s.cfg s.cfg.debounceMs ∧
      s.evReleased = { s with wasPressed := false }) := by
  cases hw : s.wasPressed
  · exact .inl ⟨rfl, by simp [State.evReleased, hw]⟩
  · by_cases hd : zextTW s.cfg s.cfg.debounceMs < s.pressMs
    · have hk : classifySignal s.cfg s.pressMs = .dot ∨ classifySignal s.cfg s.pressMs = .dash ∨
          classifySignal s.cfg s.pressMs = .noise := by
        unfold classifySignal; split <;> [simp; (split <;> simp)]
      rcases hk with hk | hk | hk
      · refine .inr (.inl ⟨rfl, hd, .dot, by simp [hk, symOfClass], ?_⟩)
        simp [State.evReleased, State.releaseAs, State.acceptSymbol, State.emitSymbol, State.emitTx, State.driveClass,
          State.now, hw, hd, hk, symOfClass]
      · refine .inr (.inl ⟨rfl, hd, .dash, by simp [hk, symOfClass], ?_⟩)
        simp [State.evReleased, State.releaseAs, State.acceptSymbol, State.emitSymbol, State.emitTx, State.driveClass,
          State.now, hw, hd, hk, symOfClass]
      · refine .inr (.inr (.inl ⟨rfl, hd, hk, ?_⟩))
        simp [State.evReleased, State.releaseAs, State.discard, State.driveClass, hw, hd, hk, symOfClass]
    · exact .inr (.inr (.inr ⟨rfl, Nat.not_lt.mp hd, by simp [State.evReleased, State.discard, hw, hd]⟩))

end Sys2Proof.Machine
end

