-- ==== Sys2Proof/Laws/Step.lean ====
section
/-! SUPPORT. What a step can do, said once: every operation is a function of the state under the guard of R6, and so are the
two sides and the step. -/

namespace Sys2Proof.Machine

/-- The state each operation leaves under a legal configuration. -/
def effect : Instr → State → State
  | .rxDot, s => s.rxSignal .dot
  | .rxDash, s => s.rxSignal .dash
  | .rxCharEnd, s => s.rxCharEnd
  | .rxCharEndLower, s => s.rxCharEnd
  | .rxHardCharFlush, s => s.rxCharEnd
  | .rxWordEnd, s => s.rxWordEnd
  | .rxWordEndLower, s => s.rxWordEnd
  | .rxSoftWordFlush, s => if s.spaceEmitted then s else s.emitSpace
  | .rxIgnore _, s => s
  | .reset, s => s.resetRegisters
  | .txHold, s => s
  | .syncEmit, s => s.syncEmit
  | .gapEval, s => s.gapEval
  | .debounceSample, s => s.debounceSample
  | .evPressed, s => s.evPressed
  | .evReleased, s => s.evReleased
  | .discard, s => s.discard
  | .classifySignal d, s => s.driveClass (classifySignal s.cfg d)
  | .classifyGap g, s => s.driveClass (classifyGap s.cfg g)
  | .charTimeout, s => if s.charTimeoutDue then s.decodeAndClear else s
  | .wordTimeout, s => if s.wordTimeoutDue then s.emitSpace else s
  | .txDot, s => s.emitSymbol .dot
  | .txDash, s => s.emitSymbol .dash

/-- Every operation answers its effect under a legal configuration, and is refused under any other (R6, R95). -/
theorem exec_eq (i : Instr) (s : State) : exec i s = s.becomes (effect i s) := by
  cases i <;> rfl

/-- An operation answers a next state exactly under a legal configuration, and then its effect. -/
theorem exec_eq_next_iff {i : Instr} {s t : State} : exec i s = .next t ↔ s.cfg.legal = true ∧ effect i s = t := by
  rw [exec_eq, becomes_eq_next_iff]

theorem exec_of_legal {s : State} (h : s.cfg.legal = true) (i : Instr) : exec i s = .next (effect i s) := by
  rw [exec_eq, becomes_of_legal h]

/-! The fields no operation writes, by operation. -/

@[simp] theorem rxSignal_inp (s : State) (y : DotDash) : (s.rxSignal y).inp = s.inp := by
  rcases rxSignal_cases s y with ⟨-, -, h⟩ | ⟨-, -, h⟩ | ⟨-, -, h⟩ | ⟨-, -, h⟩ <;> simp [h]

@[simp] theorem rxSignal_cfg (s : State) (y : DotDash) : (s.rxSignal y).cfg = s.cfg := by
  rcases rxSignal_cases s y with ⟨-, -, h⟩ | ⟨-, -, h⟩ | ⟨-, -, h⟩ | ⟨-, -, h⟩ <;> simp [h]

@[simp] theorem rxSignal_script (s : State) (y : DotDash) : (s.rxSignal y).script = s.script := by
  rcases rxSignal_cases s y with ⟨-, -, h⟩ | ⟨-, -, h⟩ | ⟨-, -, h⟩ | ⟨-, -, h⟩ <;> simp [h]

/-- No operation writes the configuration (R13), the sampled inputs or the inputs to come. -/
theorem effect_environment (i : Instr) (s : State) :
    (effect i s).cfg = s.cfg ∧ (effect i s).inp = s.inp ∧ (effect i s).script = s.script := by
  cases i <;> simp only [effect]
  case rxDot => simp
  case rxDash => simp
  case rxCharEnd => rcases rxCharEnd_cases s with ⟨-, -, h⟩ | ⟨-, h⟩ <;> simp [h]
  case rxCharEndLower => rcases rxCharEnd_cases s with ⟨-, -, h⟩ | ⟨-, h⟩ <;> simp [h]
  case rxHardCharFlush => rcases rxCharEnd_cases s with ⟨-, -, h⟩ | ⟨-, h⟩ <;> simp [h]
  case rxWordEnd => rcases rxWordEnd_cases s with ⟨-, -, h⟩ | ⟨-, h⟩ <;> simp [h]
  case rxWordEndLower => rcases rxWordEnd_cases s with ⟨-, -, h⟩ | ⟨-, h⟩ <;> simp [h]
  case rxSoftWordFlush => split <;> simp
  case rxIgnore => simp
  case reset => simp
  case txHold => simp
  case syncEmit => unfold State.syncEmit; split <;> simp
  case gapEval =>
    unfold State.gapEval
    rcases markGap_cases (s.driveClass (classifyGap s.cfg s.gapMs)) (classifyGap s.cfg s.gapMs) with
      ⟨-, -, h⟩ | ⟨-, -, h⟩ | ⟨-, -, h⟩ <;> simp [h]
  case debounceSample =>
    rcases debounceSample_cases s with ⟨-, -, h⟩ | ⟨-, h⟩ <;> simp [h, State.acceptEdge]
  case evPressed => unfold State.evPressed; split <;> simp
  case evReleased =>
    rcases evReleased_cases s with ⟨-, h⟩ | ⟨-, -, y, -, h⟩ | ⟨-, -, -, h⟩ | ⟨-, -, h⟩ <;> simp [h]
  case discard => simp
  case classifySignal => simp
  case classifyGap => simp
  case charTimeout => split <;> simp
  case wordTimeout => split <;> simp
  case txDot => simp
  case txDash => simp

@[simp] theorem effect_cfg (i : Instr) (s : State) : (effect i s).cfg = s.cfg := (effect_environment i s).1

@[simp] theorem effect_inp (i : Instr) (s : State) : (effect i s).inp = s.inp := (effect_environment i s).2.1

@[simp] theorem effect_script (i : Instr) (s : State) : (effect i s).script = s.script := (effect_environment i s).2.2

/-- GAP_EVAL where it is selected (R65). -/
def State.txGapNext (s : State) : State := if s.gapEvalSelected then effect .gapEval s else s

/-- The event of the step goes to the encoder (R65). -/
def State.txEventNext (s : State) : State :=
  match s.event with
  | none => s
  | some ⟨.pressed, _⟩ => effect .evPressed s
  | some ⟨.released, _⟩ => effect .evReleased s

/-- The state the transmit side leaves (R65). -/
def State.txNext (s : State) : State :=
  if s.inp.toneBusy then s
  else if s.inPreamble then effect .syncEmit s
  else (effect .debounceSample s.txGapNext).txEventNext

/-- The byte of the step (R77). -/
def State.rxCommandNext (s : State) : State := if s.inp.rxValid then effect (decodeByte s.inp.rxByte) s else s

/-- The state the receive side leaves (R77). -/
def State.rxNext (s : State) : State := (effect .wordTimeout (effect .charTimeout s)).rxCommandNext

/-- The state the block leaves once its ports are sampled. -/
def State.blockNext (s : State) : State := if s.inp.rst then s.resetRegisters else s.txNext.rxNext

@[simp] theorem txGapNext_cfg (s : State) : s.txGapNext.cfg = s.cfg := by unfold State.txGapNext; split <;> simp
@[simp] theorem txGapNext_inp (s : State) : s.txGapNext.inp = s.inp := by unfold State.txGapNext; split <;> simp
@[simp] theorem txGapNext_script (s : State) : s.txGapNext.script = s.script := by unfold State.txGapNext; split <;> simp
@[simp] theorem txEventNext_cfg (s : State) : s.txEventNext.cfg = s.cfg := by unfold State.txEventNext; split <;> simp
@[simp] theorem txEventNext_inp (s : State) : s.txEventNext.inp = s.inp := by unfold State.txEventNext; split <;> simp
@[simp] theorem txEventNext_script (s : State) : s.txEventNext.script = s.script := by
  unfold State.txEventNext; split <;> simp
@[simp] theorem txNext_cfg (s : State) : s.txNext.cfg = s.cfg := by
  unfold State.txNext; split <;> [rfl; (split <;> simp)]
@[simp] theorem txNext_inp (s : State) : s.txNext.inp = s.inp := by
  unfold State.txNext; split <;> [rfl; (split <;> simp)]
@[simp] theorem txNext_script (s : State) : s.txNext.script = s.script := by
  unfold State.txNext; split <;> [rfl; (split <;> simp)]
@[simp] theorem rxCommandNext_cfg (s : State) : s.rxCommandNext.cfg = s.cfg := by
  unfold State.rxCommandNext; split <;> simp
@[simp] theorem rxCommandNext_inp (s : State) : s.rxCommandNext.inp = s.inp := by
  unfold State.rxCommandNext; split <;> simp
@[simp] theorem rxCommandNext_script (s : State) : s.rxCommandNext.script = s.script := by
  unfold State.rxCommandNext; split <;> simp
@[simp] theorem rxNext_cfg (s : State) : s.rxNext.cfg = s.cfg := by simp [State.rxNext]
@[simp] theorem rxNext_inp (s : State) : s.rxNext.inp = s.inp := by simp [State.rxNext]
@[simp] theorem rxNext_script (s : State) : s.rxNext.script = s.script := by simp [State.rxNext]
@[simp] theorem blockNext_cfg (s : State) : s.blockNext.cfg = s.cfg := by unfold State.blockNext; split <;> simp
@[simp] theorem blockNext_inp (s : State) : s.blockNext.inp = s.inp := by unfold State.blockNext; split <;> simp
@[simp] theorem blockNext_script (s : State) : s.blockNext.script = s.script := by
  unfold State.blockNext; split <;> simp

/-- What the transmit side answers (R65). -/
theorem txStep_eq (s : State) : txStep s = s.becomes s.txNext := by
  unfold txStep State.txNext
  split
  · rfl
  split
  · rw [exec_eq]
  · cases hl : s.cfg.legal
    · unfold txGap
      split <;> simp [exec_eq, becomes_of_not_legal, hl, andThen]
    · have hg : txGap s = .next s.txGapNext := by
        unfold txGap State.txGapNext; split <;> simp [exec_of_legal hl]
      have he (t : State) (ht : t.cfg.legal = true) : txEvent t = .next t.txEventNext := by
        rcases hk : t.event with _ | ⟨_ | _, k⟩ <;> simp [txEvent, State.txEventNext, hk, exec_of_legal ht]
      rw [becomes_of_legal hl, hg, andThen_next, exec_of_legal (by simpa using hl), andThen_next,
        he _ (by simpa using hl)]

/-- What the receive side answers (R77). -/
theorem rxStep_eq (s : State) : rxStep s = s.becomes s.rxNext := by
  unfold rxStep State.rxNext
  cases hl : s.cfg.legal
  · simp [exec_eq, becomes_of_not_legal, hl]
  · have hc (t : State) (ht : t.cfg.legal = true) : rxCommand t = .next t.rxCommandNext := by
      unfold rxCommand State.rxCommandNext; split <;> simp [exec_of_legal ht]
    rw [becomes_of_legal hl, exec_of_legal hl, andThen_next, exec_of_legal (by simpa using hl), andThen_next,
      hc _ (by simpa using hl)]

/-- What a step answers: under a legal configuration the block's next state, and under any other nothing (R6, R95). -/
theorem step_eq (s : State) : step s = s.becomes s.sample.blockNext := by
  have hs (t : State) : s.sample.becomes t = s.becomes t := by simp only [State.becomes, State.sample_cfg]; rfl
  rw [← hs]
  unfold step blockStep State.blockNext
  split
  · rw [exec_eq]; rfl
  · rw [txStep_eq]
    unfold State.becomes
    cases hl : s.sample.cfg.legal
    · simp
    · simp [rxStep_eq, State.becomes]
      simpa using hl

theorem step_eq_next_iff {s t : State} : step s = .next t ↔ s.cfg.legal = true ∧ s.sample.blockNext = t := by
  rw [step_eq, becomes_eq_next_iff]

theorem step_of_legal {s : State} (h : s.cfg.legal = true) : step s = .next s.sample.blockNext := by
  rw [step_eq, becomes_of_legal h]

/-- A step leaves the configuration alone and consumes one line of the script. -/
theorem step_environment {s t : State} (h : step s = .next t) :
    t.cfg = s.cfg ∧ t.inp = s.nextInputs ∧ t.script = s.script.tail := by
  obtain ⟨-, rfl⟩ := step_eq_next_iff.mp h
  simp

end Sys2Proof.Machine
end

