-- ==== Sys2Proof/Laws/Frames.lean ====
section
/-! SUPPORT. What each side leaves alone: the two sides share no register (20_memory.md R39). -/

namespace Sys2Proof.Machine

theorem SameRx.refl (s : State) : SameRx s s := ⟨rfl, rfl, rfl, rfl, rfl, rfl, rfl⟩

theorem SameTx.refl (s : State) : SameTx s s := ⟨rfl, rfl, rfl, rfl, rfl, rfl, rfl, rfl, rfl, rfl⟩

theorem SameRx.symm {s t : State} (h : SameRx s t) : SameRx t s :=
  ⟨h.1.symm, h.2.symm, h.3.symm, h.4.symm, h.5.symm, h.6.symm, h.7.symm⟩

theorem SameTx.symm {s t : State} (h : SameTx s t) : SameTx t s :=
  ⟨h.1.symm, h.2.symm, h.3.symm, h.4.symm, h.5.symm, h.6.symm, h.7.symm, h.8.symm, h.9.symm, h.10.symm⟩

theorem SameRx.trans {s t u : State} (h : SameRx s t) (k : SameRx t u) : SameRx s u :=
  ⟨h.1.trans k.1, h.2.trans k.2, h.3.trans k.3, h.4.trans k.4, h.5.trans k.5, h.6.trans k.6, h.7.trans k.7⟩

theorem SameTx.trans {s t u : State} (h : SameTx s t) (k : SameTx t u) : SameTx s u :=
  ⟨h.1.trans k.1, h.2.trans k.2, h.3.trans k.3, h.4.trans k.4, h.5.trans k.5, h.6.trans k.6, h.7.trans k.7,
    h.8.trans k.8, h.9.trans k.9, h.10.trans k.10⟩

/-- The operations of the receive side (43_rx_framing.md). -/
def rxOps : Instr → Bool
  | .rxDot | .rxDash | .rxCharEnd | .rxCharEndLower | .rxHardCharFlush | .rxWordEnd | .rxWordEndLower
  | .rxSoftWordFlush | .rxIgnore _ | .charTimeout | .wordTimeout => true
  | .reset | .txHold | .syncEmit | .gapEval | .debounceSample | .evPressed | .evReleased | .discard
  | .classifySignal _ | .classifyGap _ | .txDot | .txDash => false

/-- A command byte is an operation of the receive side. -/
theorem rxOps_decodeByte (b : Byte) : rxOps (decodeByte b) = true := by
  unfold decodeByte
  repeat' (split; · rfl)
  rfl

/-- An operation of the receive side leaves the transmit side alone. -/
theorem effect_sameTx {i : Instr} (h : rxOps i = true) (s : State) :
    SameTx (effect i s) s ∧ (effect i s).txOut = s.txOut ∧ (effect i s).event = s.event ∧
      (effect i s).classOut = s.classOut := by
  cases i <;> simp only [rxOps, Bool.false_eq_true] at h <;> simp only [effect]
  case rxDot =>
    rcases rxSignal_cases s .dot with ⟨-, -, h⟩ | ⟨-, -, h⟩ | ⟨-, -, h⟩ | ⟨-, -, h⟩ <;>
      (rw [h]; exact ⟨⟨rfl, rfl, rfl, rfl, rfl, rfl, rfl, rfl, rfl, rfl⟩, rfl, rfl, rfl⟩)
  case rxDash =>
    rcases rxSignal_cases s .dash with ⟨-, -, h⟩ | ⟨-, -, h⟩ | ⟨-, -, h⟩ | ⟨-, -, h⟩ <;>
      (rw [h]; exact ⟨⟨rfl, rfl, rfl, rfl, rfl, rfl, rfl, rfl, rfl, rfl⟩, rfl, rfl, rfl⟩)
  case rxCharEnd =>
    rcases rxCharEnd_cases s with ⟨-, -, h⟩ | ⟨-, h⟩ <;>
      (rw [h]; exact ⟨⟨rfl, rfl, rfl, rfl, rfl, rfl, rfl, rfl, rfl, rfl⟩, rfl, rfl, rfl⟩)
  case rxCharEndLower =>
    rcases rxCharEnd_cases s with ⟨-, -, h⟩ | ⟨-, h⟩ <;>
      (rw [h]; exact ⟨⟨rfl, rfl, rfl, rfl, rfl, rfl, rfl, rfl, rfl, rfl⟩, rfl, rfl, rfl⟩)
  case rxHardCharFlush =>
    rcases rxCharEnd_cases s with ⟨-, -, h⟩ | ⟨-, h⟩ <;>
      (rw [h]; exact ⟨⟨rfl, rfl, rfl, rfl, rfl, rfl, rfl, rfl, rfl, rfl⟩, rfl, rfl, rfl⟩)
  case rxWordEnd =>
    rcases rxWordEnd_cases s with ⟨-, -, h⟩ | ⟨-, h⟩ <;>
      (rw [h]; exact ⟨⟨rfl, rfl, rfl, rfl, rfl, rfl, rfl, rfl, rfl, rfl⟩, rfl, rfl, rfl⟩)
  case rxWordEndLower =>
    rcases rxWordEnd_cases s with ⟨-, -, h⟩ | ⟨-, h⟩ <;>
      (rw [h]; exact ⟨⟨rfl, rfl, rfl, rfl, rfl, rfl, rfl, rfl, rfl, rfl⟩, rfl, rfl, rfl⟩)
  case rxSoftWordFlush =>
    split <;> exact ⟨⟨rfl, rfl, rfl, rfl, rfl, rfl, rfl, rfl, rfl, rfl⟩, rfl, rfl, rfl⟩
  case rxIgnore => exact ⟨SameTx.refl s, by simp⟩
  case charTimeout =>
    split <;> exact ⟨⟨rfl, rfl, rfl, rfl, rfl, rfl, rfl, rfl, rfl, rfl⟩, rfl, rfl, rfl⟩
  case wordTimeout =>
    split <;> exact ⟨⟨rfl, rfl, rfl, rfl, rfl, rfl, rfl, rfl, rfl, rfl⟩, rfl, rfl, rfl⟩

/-- An operation of the transmit side, other than RESET, leaves the receive side alone. -/
theorem effect_sameRx {i : Instr} (h : rxOps i = false) (hr : i ≠ .reset) (s : State) :
    SameRx (effect i s) s ∧ (effect i s).rxOut = s.rxOut := by
  cases i <;> simp only [rxOps, Bool.true_eq_false] at h <;> simp only [effect]
  case reset => exact absurd rfl hr
  case syncEmit => unfold State.syncEmit; split <;> exact ⟨⟨rfl, rfl, rfl, rfl, rfl, rfl, rfl⟩, rfl⟩
  case gapEval =>
    unfold State.gapEval
    rcases markGap_cases (s.driveClass (classifyGap s.cfg s.gapMs)) (classifyGap s.cfg s.gapMs) with
      ⟨-, -, h⟩ | ⟨-, -, h⟩ | ⟨-, -, h⟩ <;> (rw [h]; exact ⟨⟨rfl, rfl, rfl, rfl, rfl, rfl, rfl⟩, rfl⟩)
  case debounceSample =>
    rcases debounceSample_cases s with ⟨-, -, h⟩ | ⟨-, h⟩ <;>
      (rw [h]; exact ⟨⟨rfl, rfl, rfl, rfl, rfl, rfl, rfl⟩, rfl⟩)
  case evPressed => unfold State.evPressed; split <;> exact ⟨⟨rfl, rfl, rfl, rfl, rfl, rfl, rfl⟩, rfl⟩
  case evReleased =>
    rcases evReleased_cases s with ⟨-, h⟩ | ⟨-, -, y, -, h⟩ | ⟨-, -, -, h⟩ | ⟨-, -, h⟩ <;>
      (rw [h]; exact ⟨⟨rfl, rfl, rfl, rfl, rfl, rfl, rfl⟩, rfl⟩)
  case txHold => exact ⟨SameRx.refl s, by simp⟩
  case discard => exact ⟨⟨rfl, rfl, rfl, rfl, rfl, rfl, rfl⟩, rfl⟩
  case classifySignal => exact ⟨⟨rfl, rfl, rfl, rfl, rfl, rfl, rfl⟩, rfl⟩
  case classifyGap => exact ⟨⟨rfl, rfl, rfl, rfl, rfl, rfl, rfl⟩, rfl⟩
  case txDot => exact ⟨⟨rfl, rfl, rfl, rfl, rfl, rfl, rfl⟩, rfl⟩
  case txDash => exact ⟨⟨rfl, rfl, rfl, rfl, rfl, rfl, rfl⟩, rfl⟩

/-- The receive side leaves the transmit side alone. -/
theorem rxNext_sameTx (s : State) :
    SameTx s.rxNext s ∧ s.rxNext.txOut = s.txOut ∧ s.rxNext.event = s.event ∧ s.rxNext.classOut = s.classOut := by
  have h1 := effect_sameTx (i := .charTimeout) rfl s
  have h2 := effect_sameTx (i := .wordTimeout) rfl (effect .charTimeout s)
  have h3 : SameTx s.rxNext (effect .wordTimeout (effect .charTimeout s)) ∧
      s.rxNext.txOut = (effect .wordTimeout (effect .charTimeout s)).txOut ∧
      s.rxNext.event = (effect .wordTimeout (effect .charTimeout s)).event ∧
      s.rxNext.classOut = (effect .wordTimeout (effect .charTimeout s)).classOut := by
    unfold State.rxNext State.rxCommandNext
    split
    · exact effect_sameTx (rxOps_decodeByte _) _
    · exact ⟨SameTx.refl _, rfl, rfl, rfl⟩
  exact ⟨(h3.1.trans h2.1).trans h1.1, h3.2.1.trans (h2.2.1.trans h1.2.1),
    h3.2.2.1.trans (h2.2.2.1.trans h1.2.2.1), h3.2.2.2.trans (h2.2.2.2.trans h1.2.2.2)⟩

/-- The encoder's answer to the event leaves the receive side alone. -/
theorem txEventNext_sameRx (s : State) : SameRx s.txEventNext s ∧ s.txEventNext.rxOut = s.rxOut := by
  unfold State.txEventNext
  split
  · exact ⟨SameRx.refl s, rfl⟩
  · exact effect_sameRx rfl (by simp) s
  · exact effect_sameRx rfl (by simp) s

/-- The transmit side leaves the receive side alone. -/
theorem txNext_sameRx (s : State) : SameRx s.txNext s ∧ s.txNext.rxOut = s.rxOut := by
  unfold State.txNext
  split
  · exact ⟨SameRx.refl s, rfl⟩
  split
  · exact effect_sameRx rfl (by simp) s
  · have h1 : SameRx s.txGapNext s ∧ s.txGapNext.rxOut = s.rxOut := by
      unfold State.txGapNext
      split
      · exact effect_sameRx rfl (by simp) s
      · exact ⟨SameRx.refl s, rfl⟩
    have h2 := effect_sameRx (i := .debounceSample) rfl (by simp) s.txGapNext
    have h3 := txEventNext_sameRx (effect .debounceSample s.txGapNext)
    exact ⟨(h3.1.trans h2.1).trans h1.1, h3.2.trans (h2.2.trans h1.2)⟩

end Sys2Proof.Machine
end

