-- ==== Sys2Proof/Laws/PerInstr.lean ====
section
/-! SUPPORT. The family RoundTrip, one lemma per constructor of `Instr`: the byte that encodes a well-formed operation
decodes to it (30_encoding.md R42). -/

namespace Sys2Proof.Laws

/-- The byte that encodes `i`, if `i` is well-formed and a byte encodes it, decodes to `i`. -/
def RoundTrip.Statement (i : Instr) : Prop :=
  ∀ (c : Cfg) (b : Byte), i.wellFormed c = true → encode i = some b → decodeByte b = i

theorem RoundTrip.rxDot : RoundTrip.Statement .rxDot := by
  rintro c b - ⟨⟩
  rfl

theorem RoundTrip.rxDash : RoundTrip.Statement .rxDash := by
  rintro c b - ⟨⟩
  rfl

theorem RoundTrip.rxCharEnd : RoundTrip.Statement .rxCharEnd := by
  rintro c b - ⟨⟩
  rfl

theorem RoundTrip.rxCharEndLower : RoundTrip.Statement .rxCharEndLower := by
  rintro c b - ⟨⟩
  rfl

theorem RoundTrip.rxHardCharFlush : RoundTrip.Statement .rxHardCharFlush := by
  rintro c b - ⟨⟩
  rfl

theorem RoundTrip.rxWordEnd : RoundTrip.Statement .rxWordEnd := by
  rintro c b - ⟨⟩
  rfl

theorem RoundTrip.rxWordEndLower : RoundTrip.Statement .rxWordEndLower := by
  rintro c b - ⟨⟩
  rfl

theorem RoundTrip.rxSoftWordFlush : RoundTrip.Statement .rxSoftWordFlush := by
  rintro c b - ⟨⟩
  rfl

theorem RoundTrip.rxIgnore (b : Byte) : RoundTrip.Statement (.rxIgnore b) := by
  rintro c b' hw ⟨⟩
  simp [Instr.wellFormed, listedBytes] at hw
  simp [decodeByte, hw]

theorem RoundTrip.reset : RoundTrip.Statement .reset := by
  rintro c b - ⟨⟩

theorem RoundTrip.txHold : RoundTrip.Statement .txHold := by
  rintro c b - ⟨⟩

theorem RoundTrip.syncEmit : RoundTrip.Statement .syncEmit := by
  rintro c b - ⟨⟩

theorem RoundTrip.gapEval : RoundTrip.Statement .gapEval := by
  rintro c b - ⟨⟩

theorem RoundTrip.debounceSample : RoundTrip.Statement .debounceSample := by
  rintro c b - ⟨⟩

theorem RoundTrip.evPressed : RoundTrip.Statement .evPressed := by
  rintro c b - ⟨⟩

theorem RoundTrip.evReleased : RoundTrip.Statement .evReleased := by
  rintro c b - ⟨⟩

theorem RoundTrip.discard : RoundTrip.Statement .discard := by
  rintro c b - ⟨⟩

theorem RoundTrip.charTimeout : RoundTrip.Statement .charTimeout := by
  rintro c b - ⟨⟩

theorem RoundTrip.wordTimeout : RoundTrip.Statement .wordTimeout := by
  rintro c b - ⟨⟩

theorem RoundTrip.txDot : RoundTrip.Statement .txDot := by
  rintro c b - ⟨⟩

theorem RoundTrip.txDash : RoundTrip.Statement .txDash := by
  rintro c b - ⟨⟩

theorem RoundTrip.classifySignal (d : Nat) : RoundTrip.Statement (.classifySignal d) := by
  rintro c b - ⟨⟩

theorem RoundTrip.classifyGap (d : Nat) : RoundTrip.Statement (.classifyGap d) := by
  rintro c b - ⟨⟩

end Sys2Proof.Laws
end

