-- ==== Sys2Proof/Laws/Sides.lean ====
section
/-! SUPPORT. Inversion of the two sides: every state one step of a side can leave, with the conditions under which it does,
said once. -/

namespace Sys2Proof.Machine

/-- What a legal configuration is (R5, R6, R90). -/
theorem Cfg.legal_spec {c : Cfg} (h : c.legal = true) :
    1 ≤ c.tickWidth ∧ 1 ≤ c.ticksPerMs ∧ c.ticksPerMs < 2 ^ c.tickWidth ∧ c.syncPattern.length ≤ 255 ∧
    c.dotThresholdMs.toNat < c.dashThresholdMs.toNat ∧ c.interCharGapMs.toNat < c.wordGapMs.toNat ∧
    (∀ r ∈ c.decodeTable, 1 ≤ r.pattern.length ∧ r.pattern.length ≤ c.morseCap) ∧ c.maxLen ≤ c.morseCap ∧
    1 ≤ c.maxLen ∧ (c.decodeTable.map (fun r => r.pattern)).Nodup := by
  simp only [Cfg.legal, Cfg.rangesOk, Cfg.thresholdsOk, Cfg.patternsFit, Cfg.patternsDistinct, Bool.and_eq_true,
    decide_eq_true_eq, List.all_eq_true] at h
  obtain ⟨⟨⟨⟨⟨⟨h1, h2⟩, h3⟩, h4⟩, h5, h6⟩, ⟨h7, h8⟩, h9⟩, h10⟩ := h
  exact ⟨h1, h2, h3, h4, h5, h6, h7, h8, h9, h10⟩

/-- The buffer of a legal configuration has room for a symbol (R90). -/
theorem Cfg.one_le_morseCap {c : Cfg} (h : c.legal = true) : 1 ≤ c.morseCap := by
  obtain ⟨-, -, -, -, -, -, -, h1, h2, -⟩ := Cfg.legal_spec h
  exact h2.trans h1

/-- Under a legal configuration a word timeout is past the character timeout too (R93). -/
theorem interCharGap_of_wordGap {c : Cfg} (h : c.legal = true) {d : Nat} (hd : zextTW c c.wordGapMs < d) :
    zextTW c c.interCharGapMs < d := by
  obtain ⟨-, -, -, -, -, h1, -⟩ := Cfg.legal_spec h
  exact Nat.lt_of_le_of_lt (zextTW_mono c h1.le) hd

/-- Where the millisecond parameters fit in TW bits, each is its own zero-extension (decision D37). -/
theorem Cfg.zextTW_of_msFits {c : Cfg} (h : c.msFits = true) :
    zextTW c c.debounceMs = c.debounceMs.toNat ∧ zextTW c c.dotThresholdMs = c.dotThresholdMs.toNat ∧
    zextTW c c.dashThresholdMs = c.dashThresholdMs.toNat ∧ zextTW c c.interCharGapMs = c.interCharGapMs.toNat ∧
    zextTW c c.wordGapMs = c.wordGapMs.toNat := by
  simp only [Cfg.msFits, Bool.and_eq_true, decide_eq_true_eq] at h
  obtain ⟨⟨⟨⟨h1, h2⟩, h3⟩, h4⟩, h5⟩ := h
  exact ⟨zextTW_of_lt h1, zextTW_of_lt h2, zextTW_of_lt h3, zextTW_of_lt h4, zextTW_of_lt h5⟩

/-- What the gap evaluation of a step can do (R65, R69): no marker, a CharGap marker, or a WordGap marker. -/
theorem txGapNext_cases (s : State) :
    (∃ k, s.txGapNext = { s with classOut := k }) ∨
    (s.wasPressed = false ∧ s.gapActive = true ∧ s.charMarked = false ∧ s.txGapNext =
      { s with classOut := some .charGap, txOut := s.txOut ++ [.gap .charGap], charMarked := true }) ∨
    (s.wasPressed = false ∧ s.gapActive = true ∧ s.spaceAdded = false ∧ s.txGapNext =
      { s with classOut := some .wordGap, txOut := s.txOut ++ [.gap .wordGap], spaceAdded := true,
               charMarked := true, gapActive := false }) := by
  unfold State.txGapNext
  split
  · next h =>
    have hg : s.wasPressed = false ∧ s.gapActive = true := by simpa [State.gapEvalSelected] using h
    simp only [effect, State.gapEval]
    rcases markGap_cases (s.driveClass (classifyGap s.cfg s.gapMs)) (classifyGap s.cfg s.gapMs) with
      ⟨hk, hf, h⟩ | ⟨hk, hf, h⟩ | ⟨-, -, h⟩
    · exact .inr (.inr ⟨hg.1, hg.2, hf, by rw [h, hk]; rfl⟩)
    · exact .inr (.inl ⟨hg.1, hg.2, hf, by rw [h, hk]; rfl⟩)
    · exact .inl ⟨_, by rw [h]; rfl⟩
  · exact .inl ⟨s.classOut, rfl⟩

/-- What the debounce sample of a step and the encoder's answer to its event can do (R61, R65, R70–R73). -/
theorem sampleAndEncode_cases (s : State) :
    (effect .debounceSample s).txEventNext = { s with event := none } ∨
    (s.debPressed = false ∧ s.debounceOpen = true ∧ s.wasPressed = false ∧
      (effect .debounceSample s).txEventNext =
        { s with debPressed := true, debLast := s.now, event := some ⟨.pressed, s.now⟩,
                 txOut := s.txOut ++ [.evt .pressed], wasPressed := true, pressStart := s.now }) ∨
    (s.debPressed = false ∧ s.debounceOpen = true ∧ s.wasPressed = true ∧
      (effect .debounceSample s).txEventNext =
        { s with debPressed := true, debLast := s.now, event := some ⟨.pressed, s.now⟩,
                 txOut := s.txOut ++ [.evt .pressed] }) ∨
    (s.debPressed = true ∧ s.debounceOpen = true ∧ s.wasPressed = false ∧
      (effect .debounceSample s).txEventNext =
        { s with debPressed := false, debLast := s.now, event := some ⟨.released, s.now⟩,
                 txOut := s.txOut ++ [.evt .released] }) ∨
    (s.debPressed = true ∧ s.debounceOpen = true ∧ s.wasPressed = true ∧
      zextTW s.cfg s.cfg.debounceMs < s.pressMs ∧
      ∃ y, symOfClass (classifySignal s.cfg s.pressMs) = some y ∧
        (effect .debounceSample s).txEventNext =
          { s with debPressed := false, debLast := s.now, event := some ⟨.released, s.now⟩,
                   wasPressed := false, classOut := some (classifySignal s.cfg s.pressMs), gapActive := true,
                   releaseTime := s.now, charMarked := false, spaceAdded := false,
                   txOut := s.txOut ++
                     [.evt .released, .tone y (freqOf s.cfg y) (toneMsOf s.cfg y), .tx (byteOf y)] }) ∨
    (s.debPressed = true ∧ s.debounceOpen = true ∧ s.wasPressed = true ∧
      ∃ k, (effect .debounceSample s).txEventNext =
        { s with debPressed := false, debLast := s.now, event := some ⟨.released, s.now⟩,
                 wasPressed := false, classOut := k, txOut := s.txOut ++ [.evt .released] }) := by
  simp only [effect]
  rcases debounceSample_cases s with ⟨hd, ho, h⟩ | ⟨-, h⟩
  · cases hb : s.debPressed
    · have hp : s.pressedRaw = true := by simpa [hb] using hd
      have ha : s.acceptEdge = { s with
          debPressed := true, debLast := s.now, event := some ⟨.pressed, s.now⟩,
          txOut := s.txOut ++ [.evt .pressed] } := by
        simp [State.acceptEdge, hp, edgeOf, State.emitTx]
      rw [h, ha]
      cases hw : s.wasPressed
      · exact .inr (.inl ⟨rfl, ho, rfl, by simp [State.txEventNext, effect, State.evPressed, State.now]⟩)
      · exact .inr (.inr (.inl ⟨rfl, ho, rfl, by simp [State.txEventNext, effect, State.evPressed]⟩))
    · have hp : s.pressedRaw = false := by simpa [hb] using hd
      have ha : s.acceptEdge = { s with
          debPressed := false, debLast := s.now, event := some ⟨.released, s.now⟩,
          txOut := s.txOut ++ [.evt .released] } := by
        simp [State.acceptEdge, hp, edgeOf, State.emitTx]
      rw [h]
      have ht : s.acceptEdge.txEventNext = s.acceptEdge.evReleased := by rw [ha]; rfl
      have hc : s.acceptEdge.cfg = s.cfg ∧ s.acceptEdge.pressMs = s.pressMs ∧ s.acceptEdge.now = s.now :=
        ⟨rfl, rfl, rfl⟩
      have hw : s.acceptEdge.wasPressed = s.wasPressed := rfl
      rw [ht]
      rcases evReleased_cases s.acceptEdge with ⟨h1, h2⟩ | ⟨h1, h2, y, h3, h4⟩ | ⟨h1, -, -, h4⟩ | ⟨h1, -, h4⟩
      · exact .inr (.inr (.inr (.inl ⟨rfl, ho, hw ▸ h1, by rw [h2, ha]⟩)))
      · refine .inr (.inr (.inr (.inr (.inl ⟨rfl, ho, hw ▸ h1, h2, y, h3, ?_⟩))))
        rw [h4, ha]; simp [State.pressMs, State.now]
      · exact .inr (.inr (.inr (.inr (.inr ⟨rfl, ho, hw ▸ h1, some .noise, by rw [h4, ha]⟩))))
      · exact .inr (.inr (.inr (.inr (.inr ⟨rfl, ho, hw ▸ h1, s.classOut, by rw [h4, ha]⟩))))
  · exact .inl (by rw [h]; rfl)

/-- What the transmit side can do in a step without reset (R65): hold, send a preamble symbol, or evaluate the gap and take
a sample. -/
theorem txNext_cases (s : State) :
    (s.inp.toneBusy = true ∧ s.txNext = s) ∨
    (s.inp.toneBusy = false ∧ s.syncIdx < s.cfg.syncLen ∧ ∃ y, s.cfg.syncPattern[s.syncIdx]? = some y ∧ s.txNext =
      { s with syncIdx := s.syncIdx + 1,
               txOut := s.txOut ++ [.tone y (freqOf s.cfg y) (toneMsOf s.cfg y), .tx (byteOf y)] }) ∨
    (s.inp.toneBusy = false ∧ s.cfg.syncLen ≤ s.syncIdx ∧
      s.txNext = (effect .debounceSample s.txGapNext).txEventNext) := by
  unfold State.txNext
  cases hb : s.inp.toneBusy
  · by_cases hp : s.syncIdx < s.cfg.syncLen
    · refine .inr (.inl ⟨rfl, hp, s.cfg.syncPattern[s.syncIdx]'hp, List.getElem?_eq_getElem hp, ?_⟩)
      have hg : s.cfg.syncPattern[s.syncIdx]? = some (s.cfg.syncPattern[s.syncIdx]'hp) := List.getElem?_eq_getElem hp
      simp [State.inPreamble, hp, effect, State.syncEmit, hg, State.emitSymbol, State.emitTx]
    · exact .inr (.inr ⟨rfl, Nat.not_lt.mp hp, by simp [State.inPreamble, hp]⟩)
  · exact .inl ⟨rfl, by simp⟩

/-- What the two receive timeouts of a step can do (R78, R79). -/
theorem timeouts_cases (s : State) :
    effect .wordTimeout (effect .charTimeout s) = s ∨
    (s.charTimeoutDue = true ∧ effect .wordTimeout (effect .charTimeout s) = s.decodeAndClear) ∨
    (s.charTimeoutDue = false ∧ s.wordTimeoutDue = true ∧
      effect .wordTimeout (effect .charTimeout s) = s.emitSpace) ∨
    (s.charTimeoutDue = true ∧ s.wordTimeoutDue = true ∧
      effect .wordTimeout (effect .charTimeout s) = s.decodeAndClear.emitSpace) := by
  have hd : s.decodeAndClear.wordTimeoutDue = s.wordTimeoutDue := rfl
  simp only [effect]
  by_cases hc : s.charTimeoutDue = true <;> by_cases hw : s.wordTimeoutDue = true <;> simp [hc, hd, hw]

/-- What the byte of a step can do (R77, R80–R85). -/
theorem rxCommandNext_cases (s : State) :
    s.rxCommandNext = s ∨
    (s.gotSignal = true ∧ ∃ y, s.rxCommandNext = s.rxSignal y) ∨
    (s.gotSignal = false ∧ 0 < s.bufLen ∧ s.accumulating = true ∧ s.rxCommandNext = s.decodeAndClear) ∨
    (s.gotSignal = false ∧ s.spaceEmitted = false ∧ s.rxCommandNext = s.emitSpace) := by
  unfold State.rxCommandNext State.gotSignal
  cases hv : s.inp.rxValid
  · exact .inl (by simp)
  · simp only [if_true]
    unfold decodeByte
    split
    · next h => exact .inr (.inl ⟨by simp [h], .dot, rfl⟩)
    split
    · next h => exact .inr (.inl ⟨by simp [h], .dash, rfl⟩)
    next hd ha =>
    have hg : (true && (decide (s.inp.rxByte = 0x2E) || decide (s.inp.rxByte = 0x2D))) = false := by
      rw [decide_eq_false hd, decide_eq_false ha]; rfl
    have hce : ∀ t, t = s.rxCharEnd → t = s ∨ (0 < s.bufLen ∧ s.accumulating = true ∧ t = s.decodeAndClear) := by
      rintro t rfl
      rcases rxCharEnd_cases s with ⟨h1, h2, h3⟩ | ⟨-, h3⟩
      · exact .inr ⟨h1, h2, h3⟩
      · exact .inl h3
    have hwe : ∀ t, t = s.rxWordEnd → t = s ∨ (s.spaceEmitted = false ∧ t = s.emitSpace) := by
      rintro t rfl
      rcases rxWordEnd_cases s with ⟨-, h2, h3⟩ | ⟨-, h3⟩
      · exact .inr ⟨h2, h3⟩
      · exact .inl h3
    split
    · exact (hce _ rfl).imp id fun h => .inr (.inl ⟨hg, h⟩)
    split
    · exact (hce _ rfl).imp id fun h => .inr (.inl ⟨hg, h⟩)
    split
    · exact (hce _ rfl).imp id fun h => .inr (.inl ⟨hg, h⟩)
    split
    · exact (hwe _ rfl).imp id fun h => .inr (.inr ⟨hg, h⟩)
    split
    · exact (hwe _ rfl).imp id fun h => .inr (.inr ⟨hg, h⟩)
    split
    · cases hs : s.spaceEmitted
      · exact .inr (.inr (.inr ⟨hg, rfl, by simp [effect, hs]⟩))
      · exact .inl (by simp [effect, hs])
    · exact .inl rfl

/-- What the receive side can do in a step without reset (R77): from the state `w` after the timeouts, nothing, a received
symbol, a decoded character, or a space. -/
theorem rxNext_cases (s : State) :
    ∃ w, (w = s ∨ w = s.decodeAndClear ∨ w = s.emitSpace ∨ w = s.decodeAndClear.emitSpace) ∧
      (s.rxNext = w ∨ (w.gotSignal = true ∧ ∃ y, s.rxNext = w.rxSignal y) ∨
        (0 < w.bufLen ∧ w.accumulating = true ∧ s.rxNext = w.decodeAndClear) ∨
        (w.spaceEmitted = false ∧ s.rxNext = w.emitSpace)) := by
  refine ⟨effect .wordTimeout (effect .charTimeout s), ?_, ?_⟩
  · rcases timeouts_cases s with e | ⟨-, e⟩ | ⟨-, -, e⟩ | ⟨-, -, e⟩ <;> simp [e]
  · unfold State.rxNext
    rcases rxCommandNext_cases (effect .wordTimeout (effect .charTimeout s)) with
      f | ⟨a, y, f⟩ | ⟨-, a, q, f⟩ | ⟨-, q, f⟩
    · exact .inl f
    · exact .inr (.inl ⟨a, y, f⟩)
    · exact .inr (.inr (.inl ⟨a, q, f⟩))
    · exact .inr (.inr (.inr ⟨q, f⟩))

/-- What a step can do: a reset step (R104), or the transmit side's next state followed by the receive side's, of which the
transmit registers, outputs and event are the former's. -/
theorem step_cases {s t : State} (h : step s = .next t) :
    (s.nextInputs.rst = true ∧ t = s.sample.resetRegisters) ∨
    (s.nextInputs.rst = false ∧ t = s.sample.txNext.rxNext ∧ SameTx t s.sample.txNext ∧
      t.txOut = s.sample.txNext.txOut ∧ t.event = s.sample.txNext.event ∧ SameRx s.sample.txNext s ∧
      s.sample.txNext.rxOut = []) := by
  obtain ⟨-, rfl⟩ := step_eq_next_iff.mp h
  have hx : s.sample.inp.rst = s.nextInputs.rst := rfl
  unfold State.blockNext
  cases hr : s.nextInputs.rst
  · have ht := rxNext_sameTx s.sample.txNext
    have hs := txNext_sameRx s.sample
    rw [if_neg (by simp [hr])]
    exact .inr ⟨rfl, rfl, ht.1, ht.2.1, ht.2.2.1, hs.1.trans ⟨rfl, rfl, rfl, rfl, rfl, rfl, rfl⟩, hs.2⟩
  · rw [if_pos (by simp [hr])]
    exact .inl ⟨rfl, rfl⟩

/-- A register of a range fits the width that R7 gives it. -/
theorem lt_two_pow_bitsFor {n k : Nat} (h : n ≤ k) : n < 2 ^ bitsFor (k + 1) :=
  Nat.lt_of_lt_of_le (Nat.lt_succ_of_le h) (Nat.le_pow_clog (by decide) _)

end Sys2Proof.Machine
end

