-- ==== Sys2Proof/Tests/Slice0.lean ====
section
/-! SUPPORT. The tests of the model: what the well-formedness checks refuse, the command bytes written out from 30_encoding.md
R42, single steps with their expected values from 95_test_vectors.md (each test names its vector), and for every statement
with hypotheses a state that meets them. -/

namespace Sys2Proof.Tests

open Machine

/-! ### States and inputs -/

/-- The defaults of R5 with two frequencies, so that states can be compared. -/
def testCfg : Cfg := { defaultCfg with dotFreqHz := 600, dashFreqHz := 800 }

/-- The state after reset with the preamble done (95_test_vectors.md, conventions). -/
def quiet : State := { State.reset with cfg := testCfg, inp := { resetInputs with rst := false }, syncIdx := 9 }

/-- A step at tick `n` with the button released. -/
def tick (n : Nat) : Inputs := { resetInputs with rst := false, tickNow := n }

/-- A step at tick `n` with the button pressed. -/
def down (n : Nat) : Inputs := { tick n with btnN := false }

/-- A step at tick `n` that presents the byte `b`. -/
def rx (n : Nat) (b : Byte) : Inputs := { tick n with rxValid := true, rxByte := b }

/-- A step at tick `n` with the tone sink busy. -/
def busy (n : Nat) : Inputs := { tick n with toneBusy := true }

/-- A reset step at tick `n`. -/
def rstAt (n : Nat) : Inputs := { tick n with rst := true }

/-- `s` in a step at tick `n`. -/
def atTick (s : State) (n : Nat) : State := { s with inp := tick n }

/-- `s` with steps to come. -/
def withSteps (s : State) (l : List Inputs) : State := { s with script := l }

/-- What a next state shows, and none where there is no next state. -/
def shows {α : Type} (r : Result) (f : State → α) : Option α :=
  match r with
  | .next s => some (f s)
  | .fault _ => none
  | .refused _ => none

/-- The state after a step, and the state itself where there is none. -/
def succ (s : State) : State :=
  match step s with
  | .next t => t
  | .fault _ => s
  | .refused _ => s

theorem step_succ {s : State} (h : s.cfg.legal = true) : step s = .next (succ s) := by
  simp [succ, step_of_legal h]

theorem succ_cfg (s : State) : (succ s).cfg = s.cfg := by
  cases h : s.cfg.legal
  · simp [succ, step_eq, becomes_of_not_legal h]
  · exact (step_environment (step_succ h)).1

/-- A receiver inside a word, one Dot pending since tick 1 000 000, and a transmitter timing a gap since 300 000 (V-RX-6 and
V-TX-10 in one state). -/
def midWord : State :=
  { quiet with
    accumulating := true, inWord := true, spaceEmitted := false, lastSignal := 1000000, bufLen := 1,
    gapActive := true, releaseTime := 300000, debLast := 300000 }

/-- A press since tick 100 000 (the start of V-TX-4). -/
def press : State :=
  { quiet with debPressed := true, debLast := 100000, wasPressed := true, pressStart := 100000 }

/-- The thresholds of `testCfg` beside ticks of eight bits (log entries 5 and 17). -/
def narrowCfg : Cfg := { testCfg with tickWidth := 8, ticksPerMs := 1 }

theorem quiet_legal : quiet.cfg.legal = true := by decide

theorem midWord_inv : midWord.Inv where
  legal := quiet_legal
  ranges := by constructor <;> decide
  tx := by constructor <;> decide
  rx := by constructor <;> decide

theorem press_inv : press.Inv where
  legal := quiet_legal
  ranges := by constructor <;> decide
  tx := by constructor <;> decide
  rx := by constructor <;> decide

/-! ### What the well-formedness checks refuse -/

theorem wf_default_is_legal : defaultCfg.legal = true := by decide
theorem wf_refuses_no_tick_width : Cfg.legal { defaultCfg with tickWidth := 0, ticksPerMs := 1 } = false := by
  decide
theorem wf_refuses_no_ticks_per_ms : Cfg.legal { defaultCfg with ticksPerMs := 0 } = false := by decide
theorem wf_refuses_wide_ticks_per_ms :
    Cfg.legal { defaultCfg with tickWidth := 8, ticksPerMs := 256 } = false ∧
    Cfg.legal { defaultCfg with tickWidth := 8, ticksPerMs := 255 } = true := by decide
theorem wf_refuses_long_sync :
    Cfg.legal { defaultCfg with syncPattern := List.replicate 256 .dot } = false ∧
    Cfg.legal { defaultCfg with syncPattern := List.replicate 255 .dot } = true := by decide +kernel
theorem wf_refuses_equal_signal_thresholds : Cfg.legal { defaultCfg with dotThresholdMs := 750 } = false := by
  decide
theorem wf_refuses_equal_gap_thresholds : Cfg.legal { defaultCfg with interCharGapMs := 1750 } = false := by
  decide
theorem wf_refuses_empty_pattern : Cfg.legal { defaultCfg with decodeTable := [⟨[], 0x41⟩] } = false := by decide
theorem wf_refuses_empty_table : Cfg.legal { defaultCfg with decodeTable := [], morseCap := 0 } = false := by decide
theorem wf_refuses_long_pattern : Cfg.legal { defaultCfg with morseCap := 3 } = false := by decide
theorem wf_refuses_same_pattern_twice :
    Cfg.legal { defaultCfg with decodeTable := [⟨[.dot], 0x41⟩, ⟨[.dot], 0x42⟩] } = false := by decide
theorem wf_refuses_listed_byte_as_ignored :
    (Instr.rxIgnore 0x2E).wellFormed defaultCfg = false ∧ (Instr.rxIgnore 0x68).wellFormed defaultCfg = true := by decide
theorem wf_refuses_wide_signal_duration :
    (Instr.classifySignal (2 ^ 64)).wellFormed defaultCfg = false ∧
    (Instr.classifySignal (2 ^ 64 - 1)).wellFormed defaultCfg = true := by decide
theorem wf_refuses_wide_gap : (Instr.classifyGap (2 ^ 64)).wellFormed defaultCfg = false := by decide

/-- R6: an illegal configuration is refused, with its name. -/
theorem test_illegal_configuration_is_refused :
    step { quiet with cfg := { testCfg with ticksPerMs := 0 } } = .refused .illegalConfiguration := by rfl

/-! ### Decoding: the bytes of R42, bit by bit -/

theorem decode_dot : decodeTableWord 8 0b00101110 = some .rxDot := by decide
theorem decode_dash : decodeTableWord 8 0b00101101 = some .rxDash := by decide
theorem decode_char_end : decodeTableWord 8 0b01000011 = some .rxCharEnd := by decide
theorem decode_char_end_lower : decodeTableWord 8 0b01100011 = some .rxCharEndLower := by decide
theorem decode_hard_char_flush : decodeTableWord 8 0b01001000 = some .rxHardCharFlush := by decide
theorem decode_word_end : decodeTableWord 8 0b01010111 = some .rxWordEnd := by decide
theorem decode_word_end_lower : decodeTableWord 8 0b01110111 = some .rxWordEndLower := by decide
theorem decode_soft_word_flush : decodeTableWord 8 0b01001111 = some .rxSoftWordFlush := by decide

/-- R43: `'h'`, `'o'`, a line terminator and 0x00 are ignored bytes. -/
theorem decode_ignored :
    decodeTableWord 8 0b01101000 = some (.rxIgnore 0x68) ∧ decodeTableWord 8 0b01101111 = some (.rxIgnore 0x6F) ∧
    decodeTableWord 8 0b00001010 = some (.rxIgnore 0x0A) ∧ decodeTableWord 8 0 = some (.rxIgnore 0) := by decide

/-- R42: the encoder writes the same bytes. -/
theorem encode_bytes :
    encode .rxDot = some 0b00101110 ∧ encode .rxDash = some 0b00101101 ∧ encode .rxCharEnd = some 0b01000011 ∧
    encode .rxCharEndLower = some 0b01100011 ∧ encode .rxHardCharFlush = some 0b01001000 ∧
    encode .rxWordEnd = some 0b01010111 ∧ encode .rxWordEndLower = some 0b01110111 ∧
    encode .rxSoftWordFlush = some 0b01001111 ∧ encode .txHold = none := by decide

/-- R35: with no byte there is no command. -/
theorem decode_no_byte : decode [] = .error .noByte := by rfl

/-- A table word at the receive port is the command of the next step. -/
theorem test_fetch_word :
    shows (step ((atTick quiet 0).withFetchWord 8 0x2E)) (fun t => (t.bufLen, t.accumulating)) = some (1, true) := by
  decide

/-! ### Time and the classifier -/

/-- V-T-2, V-T-3, V-T-5, V-T-6. -/
theorem test_elapsed :
    elapsedMs testCfg 251000 0 = 251 ∧ elapsedMs testCfg 50999 0 = 50 ∧
    elapsedMs testCfg 250000 0xFFFFFFFFFFF85EE0 = 750 ∧ elapsedMs testCfg 4999999 5000000 = 18446744073709551 := by
  decide

/-- V-L1-1, V-CL-3. -/
theorem test_classify_signal_tie :
    shows (exec (.classifySignal 250) quiet) State.classOut = some (some .dot) ∧
    shows (exec (.classifySignal 251) quiet) State.classOut = some (some .dash) := by decide
/-- V-CL-4. -/
theorem test_classify_signal_noise :
    shows (exec (.classifySignal 750) quiet) State.classOut = some (some .dash) ∧
    shows (exec (.classifySignal 751) quiet) State.classOut = some (some .noise) := by decide
/-- V-CL-6, V-CL-7. -/
theorem test_classify_gap_tie :
    shows (exec (.classifyGap 750) quiet) State.classOut = some (some .intraChar) ∧
    shows (exec (.classifyGap 751) quiet) State.classOut = some (some .charGap) := by decide
/-- V-CL-7, V-CL-8. -/
theorem test_classify_gap_word :
    shows (exec (.classifyGap 1750) quiet) State.classOut = some (some .charGap) ∧
    shows (exec (.classifyGap 1751) quiet) State.classOut = some (some .wordGap) := by decide

/-- R54, R55 with ticks of eight bits: 251 to 255 are a Dash, no duration is Noise, and no gap is a CharGap. -/
theorem test_classify_narrow :
    classifySignal narrowCfg 250 = .dot ∧ classifySignal narrowCfg 251 = .dash ∧ classifySignal narrowCfg 255 = .dash ∧
    classifyGap narrowCfg 255 = .intraChar := by decide

/-! ### The transmit side -/

/-- V-DB-2, V-DB-3: the window is strict, and elapsed time is truncated. -/
theorem test_debounce_strict :
    shows (step (withSteps quiet [down 50000])) (fun t => (t.debPressed, t.debLast, t.txOut)) = some (false, 0, []) ∧
    shows (step (withSteps quiet [down 50999])) (fun t => (t.debPressed, t.debLast, t.txOut)) = some (false, 0, []) := by
  decide
/-- V-DB-4. -/
theorem test_debounce_accepts :
    shows (step (withSteps quiet [down 51000])) (fun t => (t.debPressed, t.debLast, t.txOut)) =
      some (true, 51000, [.evt .pressed]) := by decide

/-- V-TX-1. -/
theorem test_hold : shows (step (withSteps press [busy 300000])) (fun t => (t.wasPressed, t.debLast, t.txOut)) =
    some (true, 100000, []) := by decide
/-- V-TX-2. -/
theorem test_sync_emit :
    shows (step (withSteps { quiet with syncIdx := 3 } [down 5000])) (fun t => (t.syncIdx, t.debPressed, t.txOut)) =
      some (4, false, [.tone .dash 800 750, .tx 0x2D]) := by decide
/-- V-TX-3. -/
theorem test_press :
    shows (step (withSteps quiet [down 100000])) (fun t => (t.wasPressed, t.pressStart, t.txOut)) =
      some (true, 100000, [.evt .pressed]) := by decide
/-- V-TX-5. -/
theorem test_release_dot :
    shows (step (withSteps press [tick 350000])) (fun t => (t.gapActive, t.releaseTime, t.txOut)) =
      some (true, 350000, [.evt .released, .tone .dot 600 250, .tx 0x2E]) := by decide
/-- V-TX-7. -/
theorem test_release_dash :
    shows (step (withSteps press [tick 850000])) (fun t => (t.wasPressed, t.releaseTime, t.txOut)) =
      some (false, 850000, [.evt .released, .tone .dash 800 750, .tx 0x2D]) := by decide
/-- V-TX-8: Noise is discarded. -/
theorem test_release_noise :
    shows (step (withSteps press [tick 851000])) (fun t => (t.wasPressed, t.gapActive, t.txOut)) =
      some (false, false, [.evt .released]) := by decide
/-- V-TX-14: a bounce is discarded. -/
theorem test_discard_bounce :
    shows (exec .evReleased (atTick { press with pressStart := 970000 } 1000000)) (fun t => (t.wasPressed, t.txOut)) =
      some (false, []) := by decide
/-- V-TX-10: no marker at 750 ms, a CharGap marker at 751. -/
theorem test_gap_char :
    shows (exec .gapEval (atTick midWord 1050000)) (fun t => (t.charMarked, t.txOut)) = some (false, []) ∧
    shows (exec .gapEval (atTick midWord 1051000)) (fun t => (t.charMarked, t.txOut)) =
      some (true, [.gap .charGap]) := by decide
/-- V-TX-11. -/
theorem test_gap_word :
    shows (exec .gapEval (atTick midWord 2051000)) (fun t => (t.charMarked, t.spaceAdded, t.gapActive, t.txOut)) =
      some (true, true, false, [.gap .wordGap]) := by decide
/-- R68, R47: the port lines of EMIT_SYMBOL. -/
theorem test_tone_ports :
    shows (exec .txDot quiet) State.tonePort = some (some (0, 600, 250)) ∧
    shows (exec .txDash quiet) State.tonePort = some (some (1, 800, 750)) ∧
    shows (exec .txDash quiet) State.txPort = some (some 0x2D) := by decide

/-! ### The receive side -/

/-- V-RX-1. -/
theorem test_rx_dot :
    shows (step (withSteps quiet [rx 0 0x2E])) (fun t => (t.accumulating, t.inWord, t.spaceEmitted, t.buf.take t.bufLen)) =
      some (true, true, false, [.dot]) := by decide
/-- V-RX-2. -/
theorem test_rx_dash :
    shows (step (withSteps { midWord with lastSignal := 0 } [rx 100000 0x2D]))
      (fun t => (t.lastSignal, t.buf.take t.bufLen)) = some (100000, [.dot, .dash]) := by decide
/-- V-RX-22: a full buffer drops the symbol, and the timeout restarts. -/
theorem test_rx_dash_full :
    shows (step (withSteps { midWord with lastSignal := 0, bufLen := 5 } [rx 700000 0x2D]))
      (fun t => (t.lastSignal, t.bufLen, t.buf)) = some (700000, 5, List.replicate 5 .dot) := by decide
/-- V-RX-3. -/
theorem test_rx_char_end :
    shows (exec .rxCharEnd { midWord with bufLen := 2, buf := [.dot, .dash, .dot, .dot, .dot] })
      (fun t => (t.accumulating, t.bufLen, t.rxOut)) = some (false, 0, [.char .letter 0x41]) := by decide
/-- V-RX-15: no row matches. -/
theorem test_rx_char_end_lower :
    shows (exec .rxCharEndLower { midWord with bufLen := 5 }) State.rxCharPort = some (some (1, 0x3F)) := by decide
/-- V-RX-17. -/
theorem test_rx_hard_char_flush :
    shows (exec .rxHardCharFlush { midWord with bufLen := 4 }) State.rxOut = some [.char .letter 0x48] ∧
    shows (exec .rxHardCharFlush quiet) State.rxOut = some [] := by decide
/-- V-RX-12, V-RX-11. -/
theorem test_rx_word_end :
    shows (exec .rxWordEnd midWord) (fun t => (t.inWord, t.spaceEmitted, t.bufLen, t.rxOut)) =
      some (false, true, 1, [.space]) ∧
    shows (exec .rxWordEnd quiet) State.rxOut = some [] := by decide
/-- V-RX-14: the pending character stays. -/
theorem test_rx_word_end_lower :
    shows (exec .rxWordEndLower midWord) (fun t => (t.accumulating, t.rxOut)) = some (true, [.space]) := by decide
/-- V-RX-13, V-RS-3. -/
theorem test_rx_soft_word_flush :
    shows (exec .rxSoftWordFlush midWord) (fun t => (t.inWord, t.rxOut)) = some (false, [.space]) ∧
    shows (exec .rxSoftWordFlush quiet) State.rxOut = some [] := by decide
/-- V-RX-16. -/
theorem test_rx_ignore :
    shows (step (withSteps midWord [rx 1000500 0x68])) (fun t => (t.lastSignal, t.bufLen, t.rxOut)) =
      some (1000000, 1, []) := by decide
/-- V-RX-6, V-RX-7. -/
theorem test_char_timeout :
    shows (exec .charTimeout (atTick midWord 1750999)) State.rxOut = some [] ∧
    shows (exec .charTimeout (atTick midWord 1751000)) State.rxOut = some [.char .letter 0x45] := by decide
/-- V-RX-8: the timeout comes before the byte. -/
theorem test_char_timeout_before_byte :
    shows (step (withSteps midWord [rx 1751000 0x2D])) (fun t => (t.rxOut, t.buf.take t.bufLen)) =
      some ([.char .letter 0x45], [.dash]) := by decide
/-- V-RX-9. -/
theorem test_word_timeout :
    shows (exec .wordTimeout (atTick midWord 2750000)) State.rxOut = some [] ∧
    shows (exec .wordTimeout (atTick midWord 2751000)) (fun t => (t.inWord, t.rxOut)) = some (false, [.space]) := by
  decide
/-- V-RX-10. -/
theorem test_both_timeouts :
    shows (step (withSteps { midWord with bufLen := 2 } [tick 2751000])) State.rxOut =
      some [.char .letter 0x49, .space] := by decide

/-- V-RS-1. -/
theorem test_reset :
    shows (step (withSteps { press with bufLen := 3, accumulating := true, inWord := true, spaceEmitted := false }
      [{ rx 123456 0x2E with rst := true, btnN := false, toneBusy := true }]))
      (fun t => (t.debLast, t.spaceEmitted, t.syncIdx + t.bufLen, t.wasPressed, t.txOut)) =
      some (123456, true, 0, false, []) := by decide

/-! ### A state for the hypotheses of every statement, and for each of its clauses -/

theorem witness_SignalByteAppendsSymbol :
    (Instr.rxDot = .rxDot ∧ (0x2E : Byte) = 0x2E ∧ DotDash.dot = .dot) ∧
    (Instr.rxDash = .rxDash ∧ (0x2D : Byte) = 0x2D ∧ DotDash.dash = .dash) ∧
    (quiet.cfg.legal = true ∧ quiet.accumulating = false) ∧
    ({ midWord with bufLen := 4 }.cfg.legal = true ∧ midWord.accumulating = true ∧ 4 < midWord.cfg.morseCap) ∧
    ({ midWord with bufLen := 5 }.accumulating = true ∧ midWord.cfg.morseCap ≤ 5) := by decide

theorem witness_CharEndDecodesPendingCharacter :
    (Instr.rxCharEndLower = .rxCharEndLower ∧ (0x63 : Byte) = 0x63) ∧
    midWord.cfg.legal = true ∧ (0 < midWord.bufLen ∧ midWord.accumulating = true) ∧
    (quiet.cfg.legal = true ∧ quiet.bufLen = 0 ∧ quiet.accumulating = false) := by decide

theorem witness_WordEndEmitsSpaceInsideWord :
    (Instr.rxWordEndLower = .rxWordEndLower ∧ (0x77 : Byte) = 0x77) ∧
    midWord.cfg.legal = true ∧ (midWord.inWord = true ∧ midWord.spaceEmitted = false) ∧
    (quiet.cfg.legal = true ∧ quiet.inWord = false ∧ quiet.spaceEmitted = true) := by decide

theorem witness_SoftWordFlushNeedsNoWord :
    ({ midWord with inWord := false }.cfg.legal = true ∧ midWord.spaceEmitted = false) ∧
    (quiet.cfg.legal = true ∧ quiet.spaceEmitted = true) := by decide

theorem witness_UnlistedByteChangesNothing :
    quiet.cfg.legal = true ∧ (0x00 : Byte) ∉ listedBytes ∧ (0x68 : Byte) ∉ listedBytes ∧
    (0x2C : Byte) ∉ listedBytes ∧ (0x2F : Byte) ∉ listedBytes ∧ (0xFF : Byte) ∉ listedBytes := by decide

theorem witness_DecodeAndEncodeAgree :
    ((Instr.rxIgnore 0x2F).wellFormed defaultCfg = true ∧ encode (.rxIgnore 0x2F) = some 0x2F) ∧
    (Instr.rxSoftWordFlush.wellFormed defaultCfg = true ∧ encode .rxSoftWordFlush = some 0x4F) := by decide

theorem witness_CharTimeoutDecodesAfterGap :
    midWord.cfg.legal = true ∧
    (midWord.accumulating = true ∧ zextTW midWord.cfg midWord.cfg.interCharGapMs <
      elapsedMs midWord.cfg (atTick midWord 1751000).now midWord.lastSignal) ∧
    elapsedMs midWord.cfg (atTick midWord 1750999).now midWord.lastSignal ≤
      zextTW midWord.cfg midWord.cfg.interCharGapMs ∧
    quiet.accumulating = false := by decide

theorem witness_WordTimeoutEmitsSpaceAfterGap :
    midWord.cfg.legal = true ∧
    (midWord.inWord = true ∧ midWord.spaceEmitted = false ∧ zextTW midWord.cfg midWord.cfg.wordGapMs <
      elapsedMs midWord.cfg (atTick midWord 2751000).now midWord.lastSignal) ∧
    elapsedMs midWord.cfg (atTick midWord 2750999).now midWord.lastSignal ≤ zextTW midWord.cfg midWord.cfg.wordGapMs ∧
    (quiet.inWord = false ∧ quiet.spaceEmitted = true) := by decide

theorem witness_ResetWritesEveryRegister :
    (atTick midWord 123456).cfg.legal = true ∧ (withSteps midWord [rstAt 123456]).cfg.legal = true ∧
    (withSteps midWord [rstAt 123456]).nextInputs.rst = true := by decide

theorem witness_EmitSymbolDrivesToneAndByte : press.cfg.legal = true := by decide

theorem witness_ResetStepIgnoresStateAndInputs :
    ∃ s t s' t' : State, s ≠ t ∧ s.cfg = t.cfg ∧ s.nextInputs.rst = true ∧ t.nextInputs.rst = true ∧
      s.nextInputs.tickNow = t.nextInputs.tickNow ∧ step s = .next s' ∧ step t = .next t' :=
  ⟨withSteps press [rstAt 7], withSteps midWord [{ rstAt 7 with rxValid := true, toneBusy := true, btnN := false }], _, _,
    by decide, rfl, rfl, rfl, rfl, step_succ quiet_legal, step_succ quiet_legal⟩

theorem witness_ResetStateIsTheReset :
    ∃ s : State, s.cfg = State.reset.cfg ∧ s.inp = State.reset.inp ∧ s.script = [] ∧ s.wasPressed = true :=
  ⟨{ State.reset with wasPressed := true, bufLen := 3 }, rfl, rfl, rfl, rfl⟩

theorem witness_ClassifySignalByThresholds :
    quiet.cfg.legal = true ∧
    250 ≤ zextTW quiet.cfg quiet.cfg.dotThresholdMs ∧ zextTW quiet.cfg quiet.cfg.dotThresholdMs < 251 ∧
    750 ≤ zextTW quiet.cfg quiet.cfg.dashThresholdMs ∧ zextTW quiet.cfg quiet.cfg.dotThresholdMs < 750 ∧
    zextTW quiet.cfg quiet.cfg.dotThresholdMs < 751 ∧ zextTW quiet.cfg quiet.cfg.dashThresholdMs < 751 := by decide

theorem witness_ClassifyGapByThresholds :
    quiet.cfg.legal = true ∧
    750 ≤ zextTW quiet.cfg quiet.cfg.interCharGapMs ∧ zextTW quiet.cfg quiet.cfg.interCharGapMs < 751 ∧
    1750 ≤ zextTW quiet.cfg quiet.cfg.wordGapMs ∧ zextTW quiet.cfg quiet.cfg.interCharGapMs < 1750 ∧
    zextTW quiet.cfg quiet.cfg.interCharGapMs < 1751 ∧ zextTW quiet.cfg quiet.cfg.wordGapMs < 1751 := by decide

theorem witness_ClassesAreTotalAndOrdered :
    testCfg.legal = true ∧ testCfg.msFits = true ∧ 2 ^ 64 - 1 < 2 ^ testCfg.tickWidth ∧
    narrowCfg.legal = true ∧ 255 < 2 ^ narrowCfg.tickWidth := by decide

theorem witness_DebounceAcceptsOnlyAfterWindow :
    quiet.cfg.legal = true ∧
    (!(tick 51000).btnN) = quiet.debPressed ∧
    ((!(down 50999).btnN) ≠ quiet.debPressed ∧
      elapsedMs testCfg { quiet with inp := down 50999 }.now quiet.debLast ≤ zextTW testCfg testCfg.debounceMs) ∧
    ((down 51000).btnN = false ∧ quiet.debPressed = false ∧
      zextTW testCfg testCfg.debounceMs < elapsedMs testCfg { quiet with inp := down 51000 }.now quiet.debLast) ∧
    ((tick 151000).btnN = true ∧ press.debPressed = true ∧
      zextTW testCfg testCfg.debounceMs < elapsedMs testCfg (atTick press 151000).now press.debLast) := by decide

theorem witness_HoldChangesNothing :
    { press with inp := busy 1 }.cfg.legal = true ∧ (busy 1).toneBusy = true := by decide

theorem witness_SyncEmitSendsNextSymbol :
    testCfg.legal = true ∧ 0 < testCfg.syncPattern.length ∧ testCfg.syncPattern[0]'(by decide) = .dot ∧
    testCfg.syncPattern[3]'(by decide) = .dash ∧ testCfg.syncPattern[8]'(by decide) = .dot := by decide

theorem witness_GapEvalMarksUnmarkedGap :
    midWord.cfg.legal = true ∧
    (atTick midWord 1050999).gapMs ≤ zextTW testCfg testCfg.interCharGapMs ∧
    (zextTW testCfg testCfg.interCharGapMs < (atTick midWord 1051000).gapMs ∧
      (atTick midWord 2050999).gapMs ≤ zextTW testCfg testCfg.wordGapMs ∧ midWord.charMarked = false) ∧
    { midWord with charMarked := true }.charMarked = true ∧
    (zextTW testCfg testCfg.interCharGapMs < (atTick midWord 2051000).gapMs ∧
      zextTW testCfg testCfg.wordGapMs < (atTick midWord 2051000).gapMs ∧ midWord.spaceAdded = false) ∧
    { midWord with spaceAdded := true }.spaceAdded = true := by decide

theorem witness_PressedEventStartsPress : quiet.cfg.legal = true ∧ quiet.wasPressed = false := by decide

theorem witness_ReleasedEventSendsSymbol :
    press.cfg.legal = true ∧ press.wasPressed = true ∧
    (zextTW testCfg testCfg.debounceMs < elapsedMs testCfg (atTick press 151000).now press.pressStart ∧
      elapsedMs testCfg (atTick press 350999).now press.pressStart ≤ zextTW testCfg testCfg.dotThresholdMs) ∧
    (zextTW testCfg testCfg.debounceMs < elapsedMs testCfg (atTick press 351000).now press.pressStart ∧
      zextTW testCfg testCfg.dotThresholdMs < elapsedMs testCfg (atTick press 351000).now press.pressStart ∧
      elapsedMs testCfg (atTick press 850999).now press.pressStart ≤ zextTW testCfg testCfg.dashThresholdMs) ∧
    elapsedMs testCfg (atTick press 150999).now press.pressStart ≤ zextTW testCfg testCfg.debounceMs ∧
    (zextTW testCfg testCfg.dotThresholdMs < elapsedMs testCfg (atTick press 851000).now press.pressStart ∧
      zextTW testCfg testCfg.dashThresholdMs < elapsedMs testCfg (atTick press 851000).now press.pressStart) ∧
    quiet.wasPressed = false := by decide

theorem witness_DiscardOnlyClearsWasPressed :
    press.cfg.legal = true ∧
    (press.wasPressed = true ∧
      elapsedMs testCfg (atTick press 150999).now press.pressStart ≤ zextTW testCfg testCfg.debounceMs) ∧
    (zextTW testCfg testCfg.debounceMs < elapsedMs testCfg (atTick press 851000).now press.pressStart ∧
      classifySignal testCfg (elapsedMs testCfg (atTick press 851000).now press.pressStart) = .noise) := by decide

theorem witness_MismatchedEventIsIgnored :
    quiet.cfg.legal = true ∧ press.wasPressed = true ∧ quiet.wasPressed = false := by decide

theorem witness_StepRunsTheDecodedCommand :
    ((withSteps midWord [rx 5 0x43]).nextInputs.rst = false ∧ Instr.rxCharEnd.wellFormed testCfg = true ∧
      (withSteps midWord [rx 5 0x43]).nextInputs.rxValid = true ∧
      encode .rxCharEnd = some (withSteps midWord [rx 5 0x43]).nextInputs.rxByte) ∧
    ((withSteps midWord [tick 5]).nextInputs.rst = false ∧ (withSteps midWord [tick 5]).nextInputs.rxValid = false) := by
  decide

theorem witness_TransmitSideOrder :
    quiet.cfg.legal = true ∧ (busy 1).toneBusy = true ∧
    ((tick 1).toneBusy = false ∧ 8 < testCfg.syncLen ∧ testCfg.syncLen ≤ 9) ∧
    (midWord.wasPressed = false ∧ midWord.gapActive = true ∧
      shows (exec .gapEval (atTick midWord 1051000)) State.charMarked = some true) ∧
    ¬ (quiet.wasPressed = false ∧ quiet.gapActive = true) ∧
    shows (exec .debounceSample (atTick quiet 51000)) State.event = some none ∧
    shows (exec .debounceSample { quiet with inp := down 51000 }) State.event = some (some ⟨.pressed, 51000⟩) ∧
    shows (exec .debounceSample (atTick press 300000)) State.event = some (some ⟨.released, 300000⟩) := by decide

theorem witness_EveryStepCompletes :
    1 ≤ testCfg.tickWidth ∧ 1 ≤ testCfg.ticksPerMs ∧ testCfg.ticksPerMs < 2 ^ testCfg.tickWidth ∧
    testCfg.syncPattern.length ≤ 255 ∧ testCfg.dotThresholdMs.toNat < testCfg.dashThresholdMs.toNat ∧
    testCfg.interCharGapMs.toNat < testCfg.wordGapMs.toNat ∧
    testCfg.decodeTable ≠ [] ∧ (∀ r ∈ testCfg.decodeTable, r.pattern ≠ [] ∧ r.pattern.length ≤ testCfg.morseCap) ∧
    (testCfg.decodeTable.map (fun r => r.pattern)).Nodup := by decide

theorem witness_IllegalConfigurationIsRefused :
    (¬ { testCfg with dotThresholdMs := 750 }.dotThresholdMs.toNat < testCfg.dashThresholdMs.toNat) ∧
    (¬ { testCfg with interCharGapMs := 1750 }.interCharGapMs.toNat < testCfg.wordGapMs.toNat) ∧
    { testCfg with ticksPerMs := 0 }.ticksPerMs = 0 ∧
    (∃ r ∈ ([⟨[], 0x41⟩] : List DecodeRow), r.pattern = [] ∨ 5 < r.pattern.length) ∧
    (∃ r ∈ defaultDecodeTable, r.pattern = [] ∨ 3 < r.pattern.length) ∧
    ¬ ([⟨[.dot], 0x41⟩, ⟨[.dot], 0x42⟩].map (fun r : DecodeRow => r.pattern)).Nodup := by decide

/-- A run of two steps. -/
theorem steps_two {P : State → Prop} {s : State} (hl : s.cfg.legal = true) (h1 : P (succ s)) (h2 : P (succ (succ s))) :
    Steps P s (succ (succ s)) :=
  .tail (.tail (.refl s) (step_succ hl) h1) (step_succ (by rw [succ_cfg]; exact hl)) h2

theorem witness_ConfigurationIsFixedForASession :
    Steps (fun _ => True) (withSteps midWord [rx 1001000 0x2D, down 1100000])
      (succ (succ (withSteps midWord [rx 1001000 0x2D, down 1100000]))) :=
  steps_two quiet_legal trivial trivial

theorem witness_StepKeepsInv :
    ∃ s t : State, s.Inv ∧ step s = .next t ∧ t ≠ s :=
  ⟨press, _, press_inv, step_succ quiet_legal, by decide⟩

theorem witness_ResetStepEstablishesInv :
    ∃ s t : State, ¬ s.Inv ∧ s.nextInputs.rst = true ∧ step s = .next t :=
  ⟨withSteps { press with debPressed := false } [rstAt 9], _,
    fun h => absurd h.tx.wasPressed (by decide), rfl, step_succ quiet_legal⟩

theorem witness_RegistersFitTheirWidths : midWord.Inv ∧ press.Inv := ⟨midWord_inv, press_inv⟩

theorem witness_AccumulatingIffBuffered :
    (∃ s t : State, step s = .next t ∧ s.nextInputs.rst = true) ∧
    (∃ s t : State, s.cfg.legal = true ∧ step s = .next t ∧ s.nextInputs.rst = false ∧
      (s.accumulating = true ↔ 1 ≤ s.bufLen) ∧ s.accumulating = true) :=
  ⟨⟨withSteps midWord [rstAt 9], _, step_succ quiet_legal, rfl⟩,
    ⟨withSteps midWord [rx 1751000 0x2D], _, quiet_legal, step_succ quiet_legal, rfl, by decide, rfl⟩⟩

theorem witness_SpaceEmittedIsNotInWord :
    (∃ s t : State, step s = .next t ∧ s.nextInputs.rst = true) ∧
    (∃ s t : State, step s = .next t ∧ s.nextInputs.rst = false ∧ s.spaceEmitted = (!s.inWord) ∧ s.inWord = true) :=
  ⟨⟨withSteps midWord [rstAt 9], _, step_succ quiet_legal, rfl⟩,
    ⟨withSteps midWord [rx 1001000 0x4F], _, step_succ quiet_legal, rfl, rfl, rfl⟩⟩

/-- A step that sends a symbol, and one that sends a marker. -/
theorem witness_TransmitEmitsSymbolOrMarker :
    (∃ t : State, step (withSteps press [tick 300000]) = .next t ∧ t.txPort = some 0x2E) ∧
    (∃ t : State, step (withSteps midWord [tick 2051000]) = .next t ∧ t.gapPort = some 1) :=
  ⟨⟨_, step_succ quiet_legal, by decide⟩, ⟨_, step_succ quiet_legal, by decide⟩⟩

theorem witness_TonePortMatchesSerialByte :
    ∃ t : State, step (withSteps press [tick 850000]) = .next t ∧ t.tonePort = some (1, 800, 750) ∧
      t.txPort = some 0x2D :=
  ⟨_, step_succ quiet_legal, by decide, by decide⟩

theorem witness_ReceiveEmitsAtMostOneOfEach :
    ∃ t : State, step (withSteps midWord [rx 2751000 0x57]) = .next t ∧ t.rxOut = [.char .letter 0x45, .space] :=
  ⟨_, step_succ quiet_legal, by decide⟩

theorem witness_OnlyDotAndDashBytesAreSent :
    ∃ (s t : State) (b : Byte), step s = .next t ∧ TxEmit.tx b ∈ t.txOut :=
  ⟨withSteps press [tick 300000], _, 0x2E, step_succ quiet_legal, by decide⟩

/-- A press, a step without an event, and a release: the path of the two statements below. -/
def pressRelease : State := withSteps quiet [down 1000000, down 1040000, tick 1120000]

theorem witness_AcceptedEventsAreAWindowApart :
    ∃ s t u v : State, step s = .next t ∧ t.event ≠ none ∧ Steps State.Quiet t u ∧ step u = .next v ∧ v.event ≠ none :=
  ⟨pressRelease, _, _, _, step_succ quiet_legal, by decide,
    .tail (.refl _) (step_succ (by decide)) ⟨by decide, by decide⟩, step_succ (by decide), by decide⟩

theorem witness_AcceptedEventsAlternate :
    ∃ (s t u v : State) (e f : ButtonEvent), step s = .next t ∧ t.event = some e ∧ Steps State.Quiet t u ∧
      step u = .next v ∧ v.event = some f :=
  ⟨pressRelease, _, _, _, ⟨.pressed, 1000000⟩, ⟨.released, 1120000⟩, step_succ quiet_legal, by decide,
    .tail (.refl _) (step_succ (by decide)) ⟨by decide, by decide⟩, step_succ (by decide), by decide⟩

/-- `quiet` under a configuration without a preamble, then a reset step, a quiet step and a press. -/
def resetPress : State :=
  { quiet with cfg := { testCfg with syncPattern := [] }, script := [rstAt 2000, down 52999, down 53000] }

theorem witness_FirstEventAfterResetIsPressed :
    ∃ (s t u v : State) (f : ButtonEvent), s.nextInputs.rst = true ∧ step s = .next t ∧ Steps State.Quiet t u ∧
      step u = .next v ∧ v.event = some f :=
  ⟨resetPress, _, _, _, ⟨.pressed, 53000⟩, rfl, step_succ (by decide),
    .tail (.refl _) (step_succ (by decide)) ⟨by decide, by decide⟩, step_succ (by decide), by decide⟩

theorem witness_EveryEventFitsTheEncoder :
    (∃ (s t : State) (e : ButtonEvent), s.Inv ∧ step s = .next t ∧ t.event = some e ∧ e.edge = .pressed) ∧
    (∃ (s t : State) (e : ButtonEvent), s.Inv ∧ step s = .next t ∧ t.event = some e ∧ e.edge = .released) :=
  ⟨⟨{ midWord with script := [down 400000] }, _, ⟨.pressed, 400000⟩,
      ⟨midWord_inv.legal, ⟨by decide, by decide, by decide, by decide, by decide, by decide, by decide⟩,
        ⟨by decide, by decide, by decide, by decide⟩, ⟨by decide, by decide, by decide⟩⟩,
      step_succ quiet_legal, by decide, rfl⟩,
    ⟨{ press with script := [tick 151000] }, _, ⟨.released, 151000⟩,
      ⟨press_inv.legal, ⟨by decide, by decide, by decide, by decide, by decide, by decide, by decide⟩,
        ⟨by decide, by decide, by decide, by decide⟩, ⟨by decide, by decide, by decide⟩⟩,
      step_succ quiet_legal, by decide, rfl⟩⟩

theorem witness_EachMarkerOncePerGap :
    (∃ s t u v : State, step s = .next t ∧ TxEmit.gap .charGap ∈ t.txOut ∧
      Steps (fun x => x.sentSymbol = false ∧ x.inp.rst = false) t u ∧ step u = .next v) ∧
    (∃ s t u v : State, step s = .next t ∧ TxEmit.gap .wordGap ∈ t.txOut ∧
      Steps (fun x => x.sentSymbol = false ∧ x.inp.rst = false) t u ∧ step u = .next v) :=
  ⟨⟨withSteps midWord [tick 1051000, tick 1052000, tick 2051000], _, _, _, step_succ quiet_legal, by decide,
      .tail (.refl _) (step_succ (by decide)) ⟨by decide, by decide⟩, step_succ (by decide)⟩,
    ⟨withSteps midWord [tick 2051000, tick 2052000, tick 3051000], _, _, _, step_succ quiet_legal, by decide,
      .tail (.refl _) (step_succ (by decide)) ⟨by decide, by decide⟩, step_succ (by decide)⟩⟩

/-- A reset step, two preamble steps and a held step. -/
def preamble : State := withSteps midWord [rstAt 0, tick 1000, busy 2000, tick 3000]

theorem witness_PreambleSendsTheSyncPattern :
    ∃ (s t : State) (n : Nat), s.nextInputs.rst = true ∧ step s = .next t ∧
      (∀ x ∈ trace n t, x.inp.rst = false) ∧
      (trace n t).countP (fun x => !x.inp.toneBusy) ≤ t.cfg.syncLen ∧ (trace n t).length = 3 :=
  ⟨preamble, succ preamble, 3, rfl, step_succ quiet_legal, by decide, by decide, by decide⟩

theorem witness_BusySinkFreezesTransmitSide :
    ∃ s t u : State, Steps (fun x => x.inp.toneBusy = true ∧ x.inp.rst = false) s t ∧ step t = .next u ∧
      u.inp.toneBusy = true :=
  ⟨withSteps press [busy 300000, busy 400000, busy 500000], _, _,
    steps_two quiet_legal ⟨by decide, by decide⟩ ⟨by decide, by decide⟩, step_succ (by decide), by decide⟩

theorem witness_LookupIsExactMatch :
    testCfg.legal = true ∧ 2 ≤ ([.dot, .dash] : List DotDash).length ∧
    (∃ r ∈ testCfg.decodeTable, r.pattern = ([.dot, .dash] : List DotDash).take 2) ∧
    (∀ r ∈ testCfg.decodeTable, r.pattern ≠ ([.dash, .dot, .dot, .dot, .dot] : List DotDash).take 5) := by decide

theorem witness_CharacterPortIsLetterOrUnknown :
    (∃ s t : State, step s = .next t ∧ t.rxCharPort = some (0, 0x45)) ∧
    (∃ s t : State, step s = .next t ∧ t.rxCharPort = some (1, 0x3F)) :=
  ⟨⟨withSteps midWord [tick 1751000], _, step_succ quiet_legal, by decide⟩,
    ⟨withSteps { midWord with bufLen := 5 } [rx 1001000 0x48], _, step_succ quiet_legal, by decide⟩⟩

theorem witness_OverlongBufferIsUnknown : testCfg.maxLen < 5 := by decide

theorem witness_LetterRoundTrip :
    quiet.cfg.legal = true ∧ quiet.cfg.dashToneMs.toNat < 2 ^ quiet.cfg.tickWidth ∧
    quiet.cfg.debounceMs.toNat < quiet.cfg.dotToneMs.toNat ∧
    quiet.cfg.dotToneMs.toNat ≤ quiet.cfg.dotThresholdMs.toNat ∧
    quiet.cfg.dotThresholdMs.toNat < quiet.cfg.dashToneMs.toNat ∧
    quiet.cfg.dashToneMs.toNat ≤ quiet.cfg.dashThresholdMs.toNat ∧
    quiet.accumulating = false ∧ quiet.buf.length = quiet.cfg.morseCap ∧
    (⟨[.dot, .dash], 0x41⟩ : DecodeRow) ∈ quiet.cfg.decodeTable := by decide

theorem witness_CharacterComesBeforeSpace :
    ∃ s t : State, step s = .next t ∧ t.rxOut = [.char .letter 0x45, .space] :=
  ⟨withSteps midWord [tick 2751000], _, step_succ quiet_legal, by decide⟩

theorem witness_NoBufferIsDecodedTwice :
    ∃ s t u v : State, step s = .next t ∧ t.sentChar = true ∧ t.gotSignal = false ∧
      Steps (fun x => x.gotSignal = false) t u ∧ step u = .next v :=
  ⟨withSteps midWord [rx 1001000 0x43, rx 1002000 0x48, tick 2751000], _, _, _, step_succ quiet_legal, by decide,
    by decide, .tail (.refl _) (step_succ (by decide)) (by decide), step_succ (by decide)⟩

theorem witness_BackwardsTickMaturesBothTimeouts :
    (atTick midWord 999999).cfg.legal = true ∧ midWord.lastSignal < 2 ^ testCfg.tickWidth ∧
    0 < 1 ∧ (atTick midWord 999999).now + 1 = midWord.lastSignal ∧
    testCfg.wordGapMs.toNat < (2 ^ testCfg.tickWidth - 1) / testCfg.ticksPerMs ∧
    midWord.accumulating = true ∧ midWord.inWord = true ∧ midWord.spaceEmitted = false ∧
    (atTick midWord 999999).inp.rxValid = false := by decide

theorem witness_ReceiveSideIgnoresTransmitSide :
    ∃ s t s' t' : State, SameRx s t ∧ SameRxInputs s.nextInputs t.nextInputs ∧ step s = .next s' ∧ step t = .next t' ∧
      s.wasPressed ≠ t.wasPressed :=
  ⟨withSteps quiet [rx 1 0x2E], withSteps press [{ rx 1 0x2E with toneBusy := true }], _, _,
    ⟨rfl, rfl, rfl, rfl, rfl, rfl, rfl⟩, ⟨rfl, rfl, rfl, rfl⟩, step_succ quiet_legal, step_succ quiet_legal, by decide⟩

theorem witness_TransmitSideIgnoresReceiveSide :
    ∃ s t s' t' : State, SameTx s t ∧ SameTxInputs s.nextInputs t.nextInputs ∧ step s = .next s' ∧ step t = .next t' ∧
      s.inWord ≠ t.inWord :=
  ⟨withSteps press [tick 300000], withSteps { press with inWord := true } [rx 300000 0x57], _, _,
    ⟨rfl, rfl, rfl, rfl, rfl, rfl, rfl, rfl, rfl, rfl⟩, ⟨rfl, rfl, rfl, rfl⟩, step_succ quiet_legal,
    step_succ quiet_legal, by decide⟩

theorem witness_ElapsedIsWrappingSubtraction :
    testCfg.legal = true ∧ 0 < 2 ^ testCfg.tickWidth ∧ 2 ^ 64 - 1 < 2 ^ testCfg.tickWidth := by decide

theorem witness_ElapsedIsTrueAcrossOneWrap :
    testCfg.legal = true ∧ 2 ^ 64 - 500000 ≤ 2 ^ 64 + 250000 ∧
    (2 ^ 64 + 250000) - (2 ^ 64 - 500000) < 2 ^ testCfg.tickWidth := by decide

theorem witness_EmptyTableIsRefused : { quiet with cfg := { testCfg with decodeTable := [] } }.cfg.decodeTable = [] := rfl

end Sys2Proof.Tests
end

section
/-! The configuration and the time primitive (00_scope.md R5–R8): what is refused, what the defaults derive, and what
`elapsed_ms` computes. -/

namespace Sys2Proof.Machine

/-- R6's refusal, for the step and every operation at once: each is its own next state under the guard
`State.becomes`. -/
theorem step_and_exec_refused_of_not_legal {s : State} (h : s.cfg.legal ≠ true) :
    step s = .refused .illegalConfiguration ∧ ∀ i, exec i s = .refused .illegalConfiguration := by
  have hl : s.cfg.legal = false := Bool.eq_false_iff.mpr h
  constructor
  · rw [step_eq, becomes_of_not_legal hl]
  · intro i
    rw [exec_eq, becomes_of_not_legal hl]

theorem Cfg.maxLen_of_decodeTable_nil {c : Cfg} (h : c.decodeTable = []) : c.maxLen = 0 := by
  simp [Cfg.maxLen, h]

/-- R90's MAXLEN ≥ 1 (log entry 6): without a pattern there is no longest one. -/
theorem Cfg.decodeTable_ne_nil_of_legal {c : Cfg} (h : c.legal = true) : c.decodeTable ≠ [] := by
  intro hnil
  obtain ⟨-, -, -, -, -, -, -, -, hmax, -⟩ := Cfg.legal_spec h
  rw [Cfg.maxLen_of_decodeTable_nil hnil] at hmax
  exact absurd hmax (by decide)

/-- Settles O28: each disjunct denies one conjunct of `Cfg.legal_spec`. -/
theorem illegalConfigurationIsRefused : Obligations.IllegalConfigurationIsRefused := by
  unfold Obligations.IllegalConfigurationIsRefused
  intro s hbroken
  refine step_and_exec_refused_of_not_legal fun hlegal => ?_
  obtain ⟨-, hticks, -, -, hsignal, hgap, hpattern, -, -, hnodup⟩ := Cfg.legal_spec hlegal
  rcases hbroken with h | h | h | ⟨r, hr, hempty | hlong⟩ | h
  · exact h hsignal
  · exact h hgap
  · omega
  · have hlen := (hpattern r hr).1
    simp [hempty] at hlen
  · exact absurd (hpattern r hr).2 (Nat.not_le_of_lt hlong)
  · exact h hnodup

/-- Settles O60. -/
theorem emptyTableIsRefused : Obligations.EmptyTableIsRefused := by
  unfold Obligations.EmptyTableIsRefused
  intro s hnil
  exact step_and_exec_refused_of_not_legal fun hlegal => Cfg.decodeTable_ne_nil_of_legal hlegal hnil

/-- In the ranges of R18 and R30 the two counters fit the widths that R7 derives from CFG. -/
theorem State.RegistersInRange.fit_widths {s : State} (h : s.RegistersInRange) :
    s.syncIdx < 2 ^ s.cfg.syncIdxWidth ∧ s.bufLen < 2 ^ s.cfg.bufLenWidth :=
  ⟨lt_two_pow_bitsFor h.syncIdx, lt_two_pow_bitsFor h.bufLen⟩

/-- Settles O33: the constants of the defaults by evaluation, the widths from the ranges of the invariant. -/
theorem registersFitTheirWidths : Obligations.RegistersFitTheirWidths := by
  unfold Obligations.RegistersFitTheirWidths
  refine ⟨by decide, by decide, by decide, by decide, fun s hinv => ?_⟩
  exact hinv.ranges.fit_widths

/-- Settles O58: the two lemmas about `elapsedMs`, with the sum in R8's order. -/
theorem elapsedIsWrappingSubtraction : Obligations.ElapsedIsWrappingSubtraction := by
  unfold Obligations.ElapsedIsWrappingSubtraction
  intro c now since _ hnow hsince
  constructor
  · rw [elapsedMs_eq hnow hsince, Nat.add_comm]
  · exact elapsedMs_lt c now since

end Sys2Proof.Machine
end

section
/-! Paths of steps (10_state.md §1, 70_reset_and_hazards.md §2): what every step keeps holds at the end of a path, and the
configuration is such a thing. -/

namespace Sys2Proof.Machine

/-- The induction over a path, once: a step need keep `I` only where `P` holds after it. -/
theorem Steps.preserves {P I : State → Prop} {s t : State}
    (keeps : ∀ {t u : State}, I t → step t = .next u → P u → I u) (path : Steps P s t) (start : I s) : I t := by
  induction path with
  | refl => exact start
  | tail _ hstep hP ih => exact keeps ih hstep hP

/-- R13: no step writes CFG, so no path does, whatever else is asked of its states. -/
theorem Steps.cfg_eq {P : State → Prop} {s t : State} (path : Steps P s t) : t.cfg = s.cfg :=
  path.preserves (I := fun x => x.cfg = s.cfg) (start := rfl) fun hcfg hstep _ =>
    have ⟨hkept, _, _⟩ := step_environment hstep
    hkept.trans hcfg

/-- Settles O29: `Steps.cfg_eq` on the paths that ask nothing of their states. -/
theorem configurationIsFixedForASession : Obligations.ConfigurationIsFixedForASession := by
  unfold Obligations.ConfigurationIsFixedForASession
  intro s t path
  exact path.cfg_eq

end Sys2Proof.Machine
end

section
/-! The invariant of the registers (10_state.md §3, §4), one side at a time. The two sides share no register (20_memory.md
R39), so each keeps its own half of `State.Inv` and hands on the other half through `SameTx` and `SameRx`. -/

namespace Sys2Proof.Machine

/-- The transmit side's half of the invariant. -/
structure State.TxInv (s : State) : Prop where
  debLast : s.debLast < 2 ^ s.cfg.tickWidth
  pressStart : s.pressStart < 2 ^ s.cfg.tickWidth
  releaseTime : s.releaseTime < 2 ^ s.cfg.tickWidth
  syncIdx : s.syncIdx ≤ s.cfg.syncLen
  coherent : s.TxCoherent

/-- The receive side's half of the invariant. -/
structure State.RxInv (s : State) : Prop where
  lastSignal : s.lastSignal < 2 ^ s.cfg.tickWidth
  bufLen : s.bufLen ≤ s.cfg.morseCap
  buf : s.buf.length = s.cfg.morseCap
  coherent : s.RxCoherent

theorem inv_iff {s : State} : s.Inv ↔ s.cfg.legal = true ∧ s.TxInv ∧ s.RxInv := by
  constructor
  · rintro ⟨hlegal, ⟨hdeb, hpress, hrelease, hlast, hsync, hlen, hbuf⟩, htx, hrx⟩
    exact ⟨hlegal, ⟨hdeb, hpress, hrelease, hsync, htx⟩, hlast, hlen, hbuf, hrx⟩
  · rintro ⟨hlegal, ⟨hdeb, hpress, hrelease, hsync, htx⟩, hlast, hlen, hbuf, hrx⟩
    exact ⟨hlegal, ⟨hdeb, hpress, hrelease, hlast, hsync, hlen, hbuf⟩, htx, hrx⟩

/-- The transmit half reads nothing but the transmit registers and the configuration. -/
theorem State.TxInv.of_sameTx {s t : State} (h : SameTx s t) (ht : t.TxInv) : s.TxInv := by
  obtain ⟨hdeb, hpress, hrelease, hsync, hwas, hstart, hpre, hgap⟩ := ht
  constructor
  case coherent => constructor <;> simpa only [h.cfg, h.debPressed, h.debLast, h.syncIdx, h.wasPressed, h.pressStart,
    h.gapActive, h.spaceAdded]
  all_goals simpa only [h.cfg, h.debLast, h.pressStart, h.releaseTime, h.syncIdx]

/-- The receive half reads nothing but the receive registers and the configuration. -/
theorem State.RxInv.of_sameRx {s t : State} (h : SameRx s t) (ht : t.RxInv) : s.RxInv := by
  obtain ⟨hlast, hlen, hbuf, hspace, hpending, hbuffered⟩ := ht
  constructor
  case coherent => constructor <;> simpa only [h.spaceEmitted, h.inWord, h.bufLen, h.accumulating]
  all_goals simpa only [h.cfg, h.lastSignal, h.bufLen, h.buf]

/-- RESET establishes both halves from any state (R104). -/
theorem resetRegisters_txInv (s : State) : s.resetRegisters.TxInv := by
  constructor
  case debLast => exact now_lt s
  case coherent => constructor <;> simp
  all_goals simp

theorem resetRegisters_rxInv (s : State) : s.resetRegisters.RxInv := by
  constructor
  case coherent => constructor <;> simp
  all_goals simp

theorem resetRegisters_inv {s : State} (hlegal : s.cfg.legal = true) : s.resetRegisters.Inv :=
  inv_iff.mpr ⟨hlegal, resetRegisters_txInv s, resetRegisters_rxInv s⟩

/-! ### The transmit side -/

theorem txGapNext_syncIdx (s : State) : s.txGapNext.syncIdx = s.syncIdx := by
  rcases txGapNext_cases s with ⟨k, h⟩ | ⟨-, -, -, h⟩ | ⟨-, -, -, h⟩ <;> rw [h]

/-- The WordGap marker ends the gap that it marks, so no gap stays open with its marker sent (R69). -/
theorem State.TxInv.txGapNext {s : State} (hs : s.TxInv) : s.txGapNext.TxInv := by
  obtain ⟨hdeb, hpress, hrelease, hsync, hwas, hstart, hpre, hgap⟩ := hs
  rcases txGapNext_cases s with ⟨k, h⟩ | ⟨-, -, -, h⟩ | ⟨-, -, -, h⟩ <;> rw [h]
  case inl => exact ⟨hdeb, hpress, hrelease, hsync, hwas, hstart, hpre, hgap⟩
  case inr.inl => exact ⟨hdeb, hpress, hrelease, hsync, hwas, hstart, hpre, hgap⟩
  case inr.inr => exact ⟨hdeb, hpress, hrelease, hsync, hwas, hstart, fun hlt => ⟨(hpre hlt).1, rfl⟩, nofun⟩

/-- The sample and the encoder's answer to it keep the transmit half once the preamble is over. By R75 an accepted edge
always fits the encoder, so the two arms of R73 cannot occur. -/
theorem State.TxInv.sampleAndEncode {s : State} (hs : s.TxInv) (hover : s.cfg.syncLen ≤ s.syncIdx) :
    (effect .debounceSample s).txEventNext.TxInv := by
  obtain ⟨hdeb, hpress, hrelease, hsync, hwas, hstart, hpre, hgap⟩ := hs
  have hnow := now_lt s
  rcases sampleAndEncode_cases s with h | ⟨-, -, -, h⟩ | ⟨hd, -, hw, -⟩ | ⟨hd, -, hw, -⟩ | ⟨-, -, -, -, y, -, h⟩ |
    ⟨-, -, -, k, h⟩
  · rw [h]
    exact ⟨hdeb, hpress, hrelease, hsync, hwas, hstart, hpre, hgap⟩
  · rw [h]
    exact ⟨hnow, hnow, hrelease, hsync, rfl, fun _ => rfl, fun hlt => absurd hlt (Nat.not_lt.mpr hover), hgap⟩
  · simp [hd, hw] at hwas
  · simp [hd, hw] at hwas
  · rw [h]
    exact ⟨hnow, hpress, hnow, hsync, rfl, nofun, fun hlt => absurd hlt (Nat.not_lt.mpr hover), fun _ => rfl⟩
  · rw [h]
    exact ⟨hnow, hpress, hrelease, hsync, rfl, nofun, fun hlt => absurd hlt (Nat.not_lt.mpr hover), hgap⟩

theorem State.TxInv.txNext {s : State} (hs : s.TxInv) : s.txNext.TxInv := by
  rcases txNext_cases s with ⟨-, h⟩ | ⟨-, hlt, y, -, h⟩ | ⟨-, hover, h⟩ <;> rw [h]
  case inl => exact hs
  case inr.inl =>
    obtain ⟨hdeb, hpress, hrelease, -, hwas, hstart, hpre, hgap⟩ := hs
    exact ⟨hdeb, hpress, hrelease, hlt, hwas, hstart, fun _ => hpre hlt, hgap⟩
  case inr.inr => exact hs.txGapNext.sampleAndEncode (by rwa [txGapNext_cfg, txGapNext_syncIdx])

/-! ### The receive side -/

theorem State.RxInv.decodeAndClear {s : State} (hs : s.RxInv) : s.decodeAndClear.RxInv :=
  ⟨hs.lastSignal, Nat.zero_le _, hs.buf, hs.coherent.space, nofun, nofun⟩

theorem State.RxInv.emitSpace {s : State} (hs : s.RxInv) : s.emitSpace.RxInv :=
  ⟨hs.lastSignal, hs.bufLen, hs.buf, rfl, hs.coherent.pending, hs.coherent.buffered⟩

/-- A received symbol leaves a non-empty buffer, because a legal buffer has room for one symbol (R80, R90). -/
theorem State.RxInv.rxSignal {s : State} (hlegal : s.cfg.legal = true) (hs : s.RxInv) (y : DotDash) :
    (s.rxSignal y).RxInv := by
  obtain ⟨-, hlen, hbuf, -, hpending, hbuffered⟩ := hs
  have hroom := Cfg.one_le_morseCap hlegal
  have hset (i : Nat) : (s.buf.set i y).length = s.cfg.morseCap := by rw [List.length_set, hbuf]
  rcases rxSignal_cases s y with ⟨-, -, h⟩ | ⟨-, hnone, -⟩ | ⟨hacc, hlt, h⟩ | ⟨-, -, h⟩
  · rw [h]
    exact ⟨now_lt s, hroom, hset 0, rfl, fun _ => rfl, fun _ => Nat.one_pos⟩
  · omega
  · rw [h]
    exact ⟨now_lt s, hlt, hset s.bufLen, rfl, fun _ => hacc, fun _ => Nat.succ_pos _⟩
  · rw [h]
    exact ⟨now_lt s, hlen, hbuf, rfl, hpending, hbuffered⟩

theorem State.RxInv.rxNext {s : State} (hlegal : s.cfg.legal = true) (hs : s.RxInv) : s.rxNext.RxInv := by
  obtain ⟨w, hw, hcommand⟩ := rxNext_cases s
  have hkept : w.cfg = s.cfg ∧ w.RxInv := by
    rcases hw with rfl | rfl | rfl | rfl
    · exact ⟨rfl, hs⟩
    · exact ⟨rfl, hs.decodeAndClear⟩
    · exact ⟨rfl, hs.emitSpace⟩
    · exact ⟨rfl, hs.decodeAndClear.emitSpace⟩
  obtain ⟨hcfg, hwinv⟩ := hkept
  rcases hcommand with h | ⟨-, y, h⟩ | ⟨-, -, h⟩ | ⟨-, h⟩ <;> rw [h]
  case inl => exact hwinv
  case inr.inl => exact hwinv.rxSignal (hcfg ▸ hlegal) y
  case inr.inr.inl => exact hwinv.decodeAndClear
  case inr.inr.inr => exact hwinv.emitSpace

/-! ### The step -/

theorem sample_sameTx (s : State) : SameTx s.sample s := ⟨rfl, rfl, rfl, rfl, rfl, rfl, rfl, rfl, rfl, rfl⟩

/-- Settles O30: a reset step establishes the invariant anew; in any other step each side keeps its own half and leaves the
other's alone. -/
theorem stepKeepsInv : Obligations.StepKeepsInv := by
  unfold Obligations.StepKeepsInv
  intro s t hinv hstep
  obtain ⟨hlegal, htx, hrx⟩ := inv_iff.mp hinv
  rcases step_cases hstep with ⟨-, rfl⟩ | ⟨-, rfl, hsameTx, -, -, hsameRx, -⟩
  · exact resetRegisters_inv hlegal
  · refine inv_iff.mpr ⟨by simpa using hlegal, ?_, ?_⟩
    · have hsent : s.sample.txNext.TxInv := (htx.of_sameTx (sample_sameTx s)).txNext
      exact hsent.of_sameTx hsameTx
    · have hkept : s.sample.txNext.RxInv := hrx.of_sameRx hsameRx
      exact hkept.rxNext (by simpa using hlegal)

end Sys2Proof.Machine
end

section
/-! The two sides share no register (20_memory.md R39), as an equation: what a side does commutes with forgetting the other
side. `SameTx` and `SameRx` say the same as relations; an equation carries through a sequence of operations by rewriting. -/

namespace Sys2Proof.Machine

/-- What the transmit side can see of a state: the receive registers, outputs and ports, and the inputs to come, are
forgotten. -/
def State.eraseRx (s : State) : State :=
  { s with
    inp := { s.inp with rxValid := false, rxByte := 0 }, script := [],
    accumulating := false, inWord := false, spaceEmitted := true, lastSignal := 0, bufLen := 0, buf := [], rxOut := [] }

/-- What the receive side can see of a state. -/
def State.eraseTx (s : State) : State :=
  { s with
    inp := { s.inp with btnN := true, toneBusy := false }, script := [],
    debPressed := false, debLast := 0, syncIdx := 0, wasPressed := false, pressStart := 0, gapActive := false,
    releaseTime := 0, charMarked := false, spaceAdded := false, event := none, classOut := none, txOut := [] }

theorem eraseRx_eq_iff {s t : State} : s.eraseRx = t.eraseRx ↔
    SameTx s t ∧ SameTxInputs s.inp t.inp ∧ s.txOut = t.txOut ∧ s.event = t.event ∧ s.classOut = t.classOut := by
  constructor
  · intro h
    simp only [State.eraseRx, State.mk.injEq, Inputs.mk.injEq] at h
    obtain ⟨hcfg, ⟨hrst, htick, hbtn, hbusy, -, -⟩, -, hdeb, hlast, hsync, hwas, hstart, hgap, hrelease, hmarked,
      hadded, -, -, -, -, -, -, hevent, hclass, hout, -⟩ := h
    exact ⟨⟨hcfg, hdeb, hlast, hsync, hwas, hstart, hgap, hrelease, hmarked, hadded⟩, ⟨hrst, htick, hbtn, hbusy⟩,
      hout, hevent, hclass⟩
  · rintro ⟨⟨hcfg, hdeb, hlast, hsync, hwas, hstart, hgap, hrelease, hmarked, hadded⟩, ⟨hrst, htick, hbtn, hbusy⟩,
      hout, hevent, hclass⟩
    simp only [State.eraseRx, *]

theorem eraseTx_eq_iff {s t : State} : s.eraseTx = t.eraseTx ↔
    SameRx s t ∧ SameRxInputs s.inp t.inp ∧ s.rxOut = t.rxOut := by
  constructor
  · intro h
    simp only [State.eraseTx, State.mk.injEq, Inputs.mk.injEq] at h
    obtain ⟨hcfg, ⟨hrst, htick, -, -, hvalid, hbyte⟩, -, -, -, -, -, -, -, -, -, -, hacc, hword, hspace, hlast, hlen,
      hbuf, -, -, -, hout⟩ := h
    exact ⟨⟨hcfg, hacc, hword, hspace, hlast, hlen, hbuf⟩, ⟨hrst, htick, hvalid, hbyte⟩, hout⟩
  · rintro ⟨⟨hcfg, hacc, hword, hspace, hlast, hlen, hbuf⟩, ⟨hrst, htick, hvalid, hbyte⟩, hout⟩
    simp only [State.eraseTx, *]

/-- No field but the inputs to come is forgotten by both. -/
theorem eq_of_erase_eq {s t : State} (hscript : s.script = t.script) (htx : s.eraseRx = t.eraseRx)
    (hrx : s.eraseTx = t.eraseTx) : s = t := by
  obtain ⟨⟨hcfg, hdeb, hlast, hsync, hwas, hstart, hgap, hrelease, hmarked, hadded⟩, ⟨hrst, htick, hbtn, hbusy⟩,
    hout, hevent, hclass⟩ := eraseRx_eq_iff.mp htx
  obtain ⟨⟨-, hacc, hword, hspace, hsignal, hlen, hbuf⟩, ⟨-, -, hvalid, hbyte⟩, hrxOut⟩ := eraseTx_eq_iff.mp hrx
  have hinp : s.inp = t.inp := by
    cases hs : s.inp
    cases ht : t.inp
    simp_all only
  cases s
  cases t
  simp_all only

theorem eraseRx_eraseRx (s : State) : s.eraseRx.eraseRx = s.eraseRx := rfl

/-! ### What a side does not touch, as an equation -/

theorem eraseRx_rxNext (s : State) : s.rxNext.eraseRx = s.eraseRx := by
  obtain ⟨hregs, hout, hevent, hclass⟩ := rxNext_sameTx s
  have hports : SameTxInputs s.rxNext.inp s.inp := by rw [rxNext_inp]; exact ⟨rfl, rfl, rfl, rfl⟩
  exact eraseRx_eq_iff.mpr ⟨hregs, hports, hout, hevent, hclass⟩

theorem eraseTx_txNext (s : State) : s.txNext.eraseTx = s.eraseTx := by
  obtain ⟨hregs, hout⟩ := txNext_sameRx s
  have hports : SameRxInputs s.txNext.inp s.inp := by rw [txNext_inp]; exact ⟨rfl, rfl, rfl, rfl⟩
  exact eraseTx_eq_iff.mpr ⟨hregs, hports, hout⟩

/-! ### The transmit side reads nothing of the receive side

Every guard of a transmit operation (R61, R65, R69–R73) is the same before and after `eraseRx`, so the proofs push
`eraseRx` into the branches of the operation, where it meets updates of transmit fields alone. -/

theorem syncEmit_eraseRx (s : State) : s.eraseRx.syncEmit = s.syncEmit.eraseRx := by
  have hnext : s.eraseRx.cfg.syncPattern[s.eraseRx.syncIdx]? = s.cfg.syncPattern[s.syncIdx]? := rfl
  unfold State.syncEmit
  rw [hnext]
  split <;> rfl

theorem markGap_eraseRx (s : State) (k : ClassCode) : s.eraseRx.markGap k = (s.markGap k).eraseRx := by
  simp only [State.markGap, apply_ite State.eraseRx]
  rfl

theorem debounceSample_eraseRx (s : State) : s.eraseRx.debounceSample = s.debounceSample.eraseRx := by
  simp only [State.debounceSample, apply_ite State.eraseRx]
  rfl

theorem evPressed_eraseRx (s : State) : s.eraseRx.evPressed = s.evPressed.eraseRx := by
  simp only [State.evPressed, apply_ite State.eraseRx]
  rfl

theorem releaseAs_eraseRx (s : State) (k : ClassCode) : s.eraseRx.releaseAs k = (s.releaseAs k).eraseRx := by
  unfold State.releaseAs
  split <;> rfl

theorem evReleased_eraseRx (s : State) : s.eraseRx.evReleased = s.evReleased.eraseRx := by
  simp only [State.evReleased, apply_ite State.eraseRx, ← releaseAs_eraseRx]
  rfl

theorem effect_eraseRx {i : Instr} (h : rxOps i = false) (hr : i ≠ .reset) (s : State) :
    effect i s.eraseRx = (effect i s).eraseRx := by
  cases i <;> simp only [rxOps, Bool.true_eq_false] at h <;> simp only [effect]
  case reset => exact absurd rfl hr
  case syncEmit => exact syncEmit_eraseRx s
  case gapEval => exact markGap_eraseRx (s.driveClass (classifyGap s.cfg s.gapMs)) (classifyGap s.cfg s.gapMs)
  case debounceSample => exact debounceSample_eraseRx s
  case evPressed => exact evPressed_eraseRx s
  case evReleased => exact evReleased_eraseRx s
  all_goals rfl

theorem txGapNext_eraseRx (s : State) : s.eraseRx.txGapNext = s.txGapNext.eraseRx := by
  simp only [State.txGapNext, apply_ite State.eraseRx, ← effect_eraseRx (i := .gapEval) rfl (by simp)]
  rfl

theorem txEventNext_eraseRx (s : State) : s.eraseRx.txEventNext = s.txEventNext.eraseRx := by
  have hevent : s.eraseRx.event = s.event := rfl
  unfold State.txEventNext
  rw [hevent]
  split
  · rfl
  · exact effect_eraseRx rfl (by simp) s
  · exact effect_eraseRx rfl (by simp) s

theorem txNext_eraseRx (s : State) : s.eraseRx.txNext = s.txNext.eraseRx := by
  have hbusy : s.eraseRx.inp.toneBusy = s.inp.toneBusy := rfl
  have hpreamble : s.eraseRx.inPreamble = s.inPreamble := rfl
  unfold State.txNext
  rw [hbusy, hpreamble]
  split
  · rfl
  split
  · exact effect_eraseRx rfl (by simp) s
  · rw [txGapNext_eraseRx, effect_eraseRx (i := .debounceSample) rfl (by simp), txEventNext_eraseRx]

/-! ### The receive side reads nothing of the transmit side -/

theorem rxSignal_eraseTx (s : State) (y : DotDash) : s.eraseTx.rxSignal y = (s.rxSignal y).eraseTx := by
  have hopen : s.eraseTx.openChar = s.openChar.eraseTx := by
    simp only [State.openChar, apply_ite State.eraseTx]
    rfl
  have happend (u : State) : u.eraseTx.appendSym y = (u.appendSym y).eraseTx := by
    simp only [State.appendSym, apply_ite State.eraseTx]
    rfl
  unfold State.rxSignal
  rw [hopen, happend]
  rfl

theorem rxCharEnd_eraseTx (s : State) : s.eraseTx.rxCharEnd = s.rxCharEnd.eraseTx := by
  simp only [State.rxCharEnd, apply_ite State.eraseTx]
  rfl

theorem rxWordEnd_eraseTx (s : State) : s.eraseTx.rxWordEnd = s.rxWordEnd.eraseTx := by
  simp only [State.rxWordEnd, apply_ite State.eraseTx]
  rfl

theorem effect_eraseTx {i : Instr} (h : rxOps i = true) (s : State) :
    effect i s.eraseTx = (effect i s).eraseTx := by
  cases i <;> simp only [rxOps, Bool.false_eq_true] at h <;> simp only [effect, apply_ite State.eraseTx]
  case rxDot => exact rxSignal_eraseTx s .dot
  case rxDash => exact rxSignal_eraseTx s .dash
  case rxCharEnd | rxCharEndLower | rxHardCharFlush => exact rxCharEnd_eraseTx s
  case rxWordEnd | rxWordEndLower => exact rxWordEnd_eraseTx s
  all_goals rfl

theorem rxCommandNext_eraseTx (s : State) : s.eraseTx.rxCommandNext = s.rxCommandNext.eraseTx := by
  simp only [State.rxCommandNext, apply_ite State.eraseTx, ← effect_eraseTx (rxOps_decodeByte _)]
  rfl

theorem rxNext_eraseTx (s : State) : s.eraseTx.rxNext = s.rxNext.eraseTx := by
  unfold State.rxNext
  rw [effect_eraseTx rfl, effect_eraseTx rfl, rxCommandNext_eraseTx]

/-! ### R39 -/

/-- Each side leaves what the other sees alone and does the same on it, so both orders agree on what either side sees. -/
theorem txNext_rxNext_comm (s : State) : s.txNext.rxNext = s.rxNext.txNext := by
  refine eq_of_erase_eq (by simp) ?_ ?_
  · calc s.txNext.rxNext.eraseRx
        = s.eraseRx.txNext := by rw [eraseRx_rxNext, txNext_eraseRx]
      _ = s.rxNext.txNext.eraseRx := by rw [← eraseRx_rxNext, txNext_eraseRx]
  · calc s.txNext.rxNext.eraseTx
        = s.eraseTx.rxNext := by rw [← rxNext_eraseTx, eraseTx_txNext]
      _ = s.rxNext.txNext.eraseTx := by rw [rxNext_eraseTx, eraseTx_txNext]

/-- Settles O55: both orders answer their state under R6's guard, which the first side leaves as it is. -/
theorem sidesRunInEitherOrder : Obligations.SidesRunInEitherOrder := by
  unfold Obligations.SidesRunInEitherOrder
  intro s
  calc andThen (txStep s) rxStep
      = s.becomes s.txNext.rxNext := by
        rw [txStep_eq, funext rxStep_eq, andThen_becomes (txNext_cfg s)]
    _ = s.becomes s.rxNext.txNext := by rw [txNext_rxNext_comm]
    _ = andThen (rxStep s) txStep := by
        rw [rxStep_eq, funext txStep_eq, andThen_becomes (rxNext_cfg s)]

/-- What the transmit side sees after a step is fixed by what it sees of the sampled state, in a reset step too (R104). -/
theorem blockNext_eraseRx (s : State) : s.eraseRx.blockNext.eraseRx = s.blockNext.eraseRx := by
  have hrst : s.eraseRx.inp.rst = s.inp.rst := rfl
  unfold State.blockNext
  rw [hrst]
  split
  · rfl
  · rw [eraseRx_rxNext, eraseRx_rxNext, txNext_eraseRx, eraseRx_eraseRx]

/-- Settles O57: the two sampled states look the same to the transmit side, hence so do the states after the step. -/
theorem transmitSideIgnoresReceiveSide : Obligations.TransmitSideIgnoresReceiveSide := by
  unfold Obligations.TransmitSideIgnoresReceiveSide
  intro s t s' t' hregs hports hs ht
  obtain ⟨-, rfl⟩ := step_eq_next_iff.mp hs
  obtain ⟨-, rfl⟩ := step_eq_next_iff.mp ht
  have hsampled : s.sample.eraseRx = t.sample.eraseRx :=
    eraseRx_eq_iff.mpr ⟨((sample_sameTx s).trans hregs).trans (sample_sameTx t).symm, hports, rfl, rfl, rfl⟩
  have hafter : s.sample.blockNext.eraseRx = t.sample.blockNext.eraseRx := by
    rw [← blockNext_eraseRx s.sample, hsampled, blockNext_eraseRx]
  obtain ⟨hregs', -, hout, hevent, -⟩ := eraseRx_eq_iff.mp hafter
  exact ⟨hregs', hout, hevent⟩

end Sys2Proof.Machine
end

section
/-! The received command byte (30_encoding.md §1, R42, R43): decoding is onto the well-formed operations that have a byte,
and encoding takes it back. -/

namespace Sys2Proof

/-- R43: no byte is illegal; what R42 does not list is RX_IGNORE of the byte itself. -/
theorem decodeByte_of_unlisted {b : Byte} (h : b ∉ listedBytes) : decodeByte b = .rxIgnore b :=
  Laws.RoundTrip.rxIgnore b defaultCfg b (by simpa [Instr.wellFormed] using h) rfl

/-- The decoder drops nothing of the byte, not even of one it ignores; and it answers RX_IGNORE, the one command whose
well-formedness asks something (R85), for no listed byte. -/
theorem decodeByte_encodes (c : Cfg) (b : Byte) :
    encode (decodeByte b) = some b ∧ (decodeByte b).wellFormed c = true := by
  by_cases h : b ∈ listedBytes
  · simp only [listedBytes, List.mem_cons, List.not_mem_nil, or_false] at h
    rcases h with rfl | rfl | rfl | rfl | rfl | rfl | rfl | rfl <;> exact ⟨rfl, rfl⟩
  · rw [decodeByte_of_unlisted h]
    exact ⟨rfl, by simpa [Instr.wellFormed] using h⟩

/-- The family RoundTrip as one statement about every operation. -/
theorem decodeByte_of_encode : ∀ i : Instr, Laws.RoundTrip.Statement i
  | .rxDot => Laws.RoundTrip.rxDot
  | .rxDash => Laws.RoundTrip.rxDash
  | .rxCharEnd => Laws.RoundTrip.rxCharEnd
  | .rxCharEndLower => Laws.RoundTrip.rxCharEndLower
  | .rxHardCharFlush => Laws.RoundTrip.rxHardCharFlush
  | .rxWordEnd => Laws.RoundTrip.rxWordEnd
  | .rxWordEndLower => Laws.RoundTrip.rxWordEndLower
  | .rxSoftWordFlush => Laws.RoundTrip.rxSoftWordFlush
  | .rxIgnore b => Laws.RoundTrip.rxIgnore b
  | .reset => Laws.RoundTrip.reset
  | .txHold => Laws.RoundTrip.txHold
  | .syncEmit => Laws.RoundTrip.syncEmit
  | .gapEval => Laws.RoundTrip.gapEval
  | .debounceSample => Laws.RoundTrip.debounceSample
  | .evPressed => Laws.RoundTrip.evPressed
  | .evReleased => Laws.RoundTrip.evReleased
  | .discard => Laws.RoundTrip.discard
  | .classifySignal d => Laws.RoundTrip.classifySignal d
  | .classifyGap g => Laws.RoundTrip.classifyGap g
  | .charTimeout => Laws.RoundTrip.charTimeout
  | .wordTimeout => Laws.RoundTrip.wordTimeout
  | .txDot => Laws.RoundTrip.txDot
  | .txDash => Laws.RoundTrip.txDash

/-- Settles O7: the listed and the unlisted bytes one way, the family RoundTrip the other. -/
theorem decodeAndEncodeAgree : Obligations.DecodeAndEncodeAgree := by
  unfold Obligations.DecodeAndEncodeAgree
  intro c
  exact ⟨decodeByte_encodes c, fun i => decodeByte_of_encode i c⟩

/-- Settles O6: the eight rows of R42 by evaluation, the other 248 bytes by `decodeByte_of_unlisted`. -/
theorem listedBytesDecodeToTheirCommands : Obligations.ListedBytesDecodeToTheirCommands := by
  unfold Obligations.ListedBytesDecodeToTheirCommands
  exact ⟨rfl, rfl, rfl, rfl, rfl, rfl, rfl, rfl, fun _ hunlisted => decodeByte_of_unlisted hunlisted⟩

end Sys2Proof
end

section
/-! The bytes and codes the block drives (30_encoding.md §2, R44, R48): a serial byte is the byte of a symbol, and a received
character is an answer of LOOKUP. -/

namespace Sys2Proof.Machine

/-! ### The serial bytes -/

theorem byteOf_eq (y : DotDash) : byteOf y = 0x2E ∨ byteOf y = 0x2D := by
  cases y
  case dot => exact .inl rfl
  case dash => exact .inr rfl

/-- Gap evaluation sends markers, no byte (R69). -/
theorem tx_mem_txGapNext {s : State} {b : Byte} (h : TxEmit.tx b ∈ s.txGapNext.txOut) : TxEmit.tx b ∈ s.txOut := by
  rcases txGapNext_cases s with ⟨k, e⟩ | ⟨-, -, -, e⟩ | ⟨-, -, -, e⟩ <;> simpa [e] using h

/-- The encoder sends a byte only for a press it accepts as a symbol (R71). -/
theorem tx_mem_sampleAndEncode {s : State} {b : Byte}
    (h : TxEmit.tx b ∈ (effect .debounceSample s).txEventNext.txOut) :
    TxEmit.tx b ∈ s.txOut ∨ ∃ y, b = byteOf y := by
  rcases sampleAndEncode_cases s with e | ⟨-, -, -, e⟩ | ⟨-, -, -, e⟩ | ⟨-, -, -, e⟩ | ⟨-, -, -, -, y, -, e⟩ |
    ⟨-, -, -, k, e⟩ <;> rw [e] at h
  case inr.inr.inr.inr.inl =>
    have hsent : TxEmit.tx b ∈ s.txOut ∨ b = byteOf y := by simpa using h
    exact hsent.imp_right (Exists.intro y)
  all_goals exact .inl (by simpa using h)

/-- The transmit side adds no byte to the output but that of a symbol (R68). -/
theorem tx_mem_txNext {s : State} {b : Byte} (h : TxEmit.tx b ∈ s.txNext.txOut) :
    TxEmit.tx b ∈ s.txOut ∨ ∃ y, b = byteOf y := by
  rcases txNext_cases s with ⟨-, e⟩ | ⟨-, -, y, -, e⟩ | ⟨-, -, e⟩ <;> rw [e] at h
  case inl => exact .inl h
  case inr.inl =>
    have hsent : TxEmit.tx b ∈ s.txOut ∨ b = byteOf y := by simpa using h
    exact hsent.imp_right (Exists.intro y)
  case inr.inr => exact (tx_mem_sampleAndEncode h).imp_left tx_mem_txGapNext

/-- Settles O38: a reset step sends nothing, and any other step starts from an empty output. -/
theorem onlyDotAndDashBytesAreSent : Obligations.OnlyDotAndDashBytesAreSent := by
  unfold Obligations.OnlyDotAndDashBytesAreSent
  intro s t b hstep hsent
  rcases step_cases hstep with ⟨-, rfl⟩ | ⟨-, -, -, hout, -⟩
  · simp at hsent
  · rw [hout] at hsent
    rcases tx_mem_txNext hsent with hbefore | ⟨y, rfl⟩
    · simp at hbefore
    · exact byteOf_eq y

/-! ### The received characters -/

/-- RX_SIGNAL emits nothing (R80). -/
@[simp] theorem rxSignal_rxOut (s : State) (y : DotDash) : (s.rxSignal y).rxOut = s.rxOut := by
  rcases rxSignal_cases s y with ⟨-, -, h⟩ | ⟨-, -, h⟩ | ⟨-, -, h⟩ | ⟨-, -, h⟩ <;> rw [h]

theorem char_mem_decodeAndClear {s : State} {k : RxCharKind} {b : Byte} (h : RxEmit.char k b ∈ s.decodeAndClear.rxOut) :
    RxEmit.char k b ∈ s.rxOut ∨ ∃ buf n, lookup s.cfg buf n = (k, b) := by
  have hsent : RxEmit.char k b ∈ s.rxOut ∨
      k = (lookup s.cfg s.buf s.bufLen).1 ∧ b = (lookup s.cfg s.buf s.bufLen).2 := by simpa using h
  exact hsent.imp_right fun ⟨hk, hb⟩ => ⟨s.buf, s.bufLen, by rw [hk, hb]⟩

theorem char_mem_emitSpace {s : State} {k : RxCharKind} {b : Byte} (h : RxEmit.char k b ∈ s.emitSpace.rxOut) :
    RxEmit.char k b ∈ s.rxOut := by
  simpa using h

/-- A character the receive side adds to the output is one that LOOKUP answered (R86): by a timeout, or by the byte of the
step. -/
theorem char_mem_rxNext {s : State} {k : RxCharKind} {b : Byte} (h : RxEmit.char k b ∈ s.rxNext.rxOut) :
    RxEmit.char k b ∈ s.rxOut ∨ ∃ buf n, lookup s.cfg buf n = (k, b) := by
  obtain ⟨w, hw, hcommand⟩ := rxNext_cases s
  have htimeouts (hmem : RxEmit.char k b ∈ w.rxOut) :
      RxEmit.char k b ∈ s.rxOut ∨ ∃ buf n, lookup s.cfg buf n = (k, b) := by
    rcases hw with rfl | rfl | rfl | rfl
    · exact .inl hmem
    · exact char_mem_decodeAndClear hmem
    · exact .inl (char_mem_emitSpace hmem)
    · exact char_mem_decodeAndClear (char_mem_emitSpace hmem)
  have hcfg : w.cfg = s.cfg := by rcases hw with rfl | rfl | rfl | rfl <;> rfl
  rcases hcommand with e | ⟨-, y, e⟩ | ⟨-, -, e⟩ | ⟨-, e⟩ <;> rw [e] at h
  case inl => exact htimeouts h
  case inr.inl => exact htimeouts (by simpa using h)
  case inr.inr.inl =>
    rcases char_mem_decodeAndClear h with hmem | hlookup
    · exact htimeouts hmem
    · exact .inr (hcfg ▸ hlookup)
  case inr.inr.inr => exact htimeouts (char_mem_emitSpace h)

/-- The character of a step, if it emits one, is an answer of LOOKUP under the step's configuration. -/
theorem lookup_of_char_mem {s t : State} {k : RxCharKind} {b : Byte} (hstep : step s = .next t)
    (hmem : RxEmit.char k b ∈ t.rxOut) : ∃ buf n, lookup t.cfg buf n = (k, b) := by
  rcases step_cases hstep with ⟨-, rfl⟩ | ⟨-, rfl, -, -, -, -, hempty⟩
  · simp at hmem
  · rcases char_mem_rxNext hmem with hbefore | hlookup
    · simp [hempty] at hbefore
    · simpa using hlookup

/-- What the character port shows was emitted. -/
theorem char_mem_of_rxCharPort {s : State} {k : BitVec 1} {b : Byte} (h : s.rxCharPort = some (k, b)) :
    ∃ kind, k = kindBit kind ∧ RxEmit.char kind b ∈ s.rxOut := by
  obtain ⟨e, hmem, hshown⟩ := List.exists_of_findSome?_eq_some h
  cases e with
  | char kind code =>
    obtain ⟨rfl, rfl⟩ : kindBit kind = k ∧ code = b := by simpa using hshown
    exact ⟨kind, rfl, hmem⟩
  | space => simp at hshown

/-- Settles O48: a character on the port is an answer of LOOKUP, and R87 leaves it two. -/
theorem characterPortIsLetterOrUnknown : Obligations.CharacterPortIsLetterOrUnknown := by
  unfold Obligations.CharacterPortIsLetterOrUnknown
  intro s t k b hstep hport
  obtain ⟨kind, rfl, hmem⟩ := char_mem_of_rxCharPort hport
  obtain ⟨buf, n, hlookup⟩ := lookup_of_char_mem hstep hmem
  rcases lookup_cases t.cfg buf n with ⟨r, hr, -, -, hletter⟩ | ⟨-, hunknown⟩
  · obtain ⟨rfl, rfl⟩ : kind = .letter ∧ b = r.code := by simpa [hlookup] using hletter
    exact .inl ⟨rfl, r, hr, rfl⟩
  · obtain ⟨rfl, rfl⟩ : kind = .unknown ∧ b = t.cfg.unknownCode := by simpa [hlookup] using hunknown
    exact .inr ⟨rfl, rfl⟩

end Sys2Proof.Machine
end

section
/-! The decode table (30_encoding.md §3, R49): where its patterns are pairwise distinct, each decodes to its own letter
(R87). -/

namespace Sys2Proof.Machine

/-- A row whose pattern no other row has answers its code, whatever the buffer holds beyond the pattern. -/
theorem lookup_pattern_append {c : Cfg} (hdistinct : (c.decodeTable.map DecodeRow.pattern).Nodup) {r : DecodeRow}
    (hr : r ∈ c.decodeTable) (rest : List DotDash) :
    lookup c (r.pattern ++ rest) r.pattern.length = (.letter, r.code) := by
  have htake : (r.pattern ++ rest).take r.pattern.length = r.pattern := List.take_left
  rcases lookup_cases c (r.pattern ++ rest) r.pattern.length with ⟨r', hr', -, hpattern, h⟩ | ⟨hnone, -⟩
  · have hsame : r = r' := List.inj_on_of_nodup_map hdistinct hr hr' (htake.symm.trans hpattern)
    rw [h, hsame]
  · exact absurd ⟨rfl, htake⟩ (hnone r hr)

/-- Settles O47: the default table's patterns are pairwise distinct, and O47 writes its rows out. -/
theorem defaultTableDecodesItsLetters : Obligations.DefaultTableDecodesItsLetters := by
  unfold Obligations.DefaultTableDecodesItsLetters
  intro rest
  have hdistinct : (defaultCfg.decodeTable.map DecodeRow.pattern).Nodup := by decide
  have hrows : ∀ r ∈ defaultDecodeTable, lookup defaultCfg (r.pattern ++ rest) r.pattern.length = (.letter, r.code) :=
    fun r hr => lookup_pattern_append hdistinct hr rest
  simpa only [defaultDecodeTable, List.forall_mem_cons, List.not_mem_nil, false_implies, implies_true, and_true,
    List.cons_append, List.nil_append, List.length_cons, List.length_nil, Nat.reduceAdd] using hrows

end Sys2Proof.Machine
end

section
/-! The duration classifier (40_classifier.md R54–R57): both of its modes are one rule, two thresholds with ties to the
shorter class, and what R56 and R57 say of the classes is said of that rule. -/

namespace Sys2Proof.Machine

/-! ### The rule of two thresholds -/

/-- The class that the thresholds `lo` and `hi` give a duration (R54, R55); a tie goes to the shorter class (R56). -/
def byThresholds (lo hi : Nat) (short middle long : ClassCode) (d : Nat) : ClassCode :=
  if d ≤ lo then short else if d ≤ hi then middle else long

theorem classifySignal_eq (c : Cfg) (d : Nat) : classifySignal c d =
    byThresholds (zextTW c c.dotThresholdMs) (zextTW c c.dashThresholdMs) .dot .dash .noise d := rfl

theorem classifyGap_eq (c : Cfg) (g : Nat) : classifyGap c g =
    byThresholds (zextTW c c.interCharGapMs) (zextTW c c.wordGapMs) .intraChar .charGap .wordGap g := rfl

section
variable {lo hi d : Nat} {short middle long : ClassCode}

theorem byThresholds_of_le (h : d ≤ lo) : byThresholds lo hi short middle long d = short := if_pos h

theorem byThresholds_of_between (hlo : lo < d) (hhi : d ≤ hi) : byThresholds lo hi short middle long d = middle :=
  (if_neg hlo.not_ge).trans (if_pos hhi)

theorem byThresholds_of_above (hlo : lo < d) (hhi : hi < d) : byThresholds lo hi short middle long d = long :=
  (if_neg hlo.not_ge).trans (if_neg hhi.not_ge)

theorem byThresholds_cases (lo hi : Nat) (short middle long : ClassCode) (d : Nat) :
    (d ≤ lo ∧ byThresholds lo hi short middle long d = short) ∨
    (lo < d ∧ d ≤ hi ∧ byThresholds lo hi short middle long d = middle) ∨
    (lo < d ∧ hi < d ∧ byThresholds lo hi short middle long d = long) := by
  rcases Nat.lt_or_ge lo d with hlo | hlo
  · rcases Nat.lt_or_ge hi d with hhi | hhi
    · exact .inr (.inr ⟨hlo, hhi, byThresholds_of_above hlo hhi⟩)
    · exact .inr (.inl ⟨hlo, hhi, byThresholds_of_between hlo hhi⟩)
  · exact .inl ⟨hlo, byThresholds_of_le hlo⟩

/-- Every duration has a class (R56). -/
theorem byThresholds_total (lo hi : Nat) (short middle long : ClassCode) (d : Nat) :
    byThresholds lo hi short middle long d = short ∨ byThresholds lo hi short middle long d = middle ∨
    byThresholds lo hi short middle long d = long :=
  (byThresholds_cases lo hi short middle long d).imp And.right
    (Or.imp (fun ⟨_, _, h⟩ => h) (fun ⟨_, _, h⟩ => h))

/-- The classes are the intervals up to `lo`, from there up to `hi`, and above it (R56, R57). -/
theorem byThresholds_iff (horder : lo ≤ hi) (hdistinct : [short, middle, long].Nodup) (d : Nat) :
    (byThresholds lo hi short middle long d = short ↔ d ≤ lo) ∧
    (byThresholds lo hi short middle long d = middle ↔ lo < d ∧ d ≤ hi) ∧
    (byThresholds lo hi short middle long d = long ↔ hi < d) := by
  obtain ⟨⟨hsm, hsl⟩, hml⟩ : (short ≠ middle ∧ short ≠ long) ∧ middle ≠ long := by simpa using hdistinct
  rcases byThresholds_cases lo hi short middle long d with ⟨hlo, h⟩ | ⟨hlo, hhi, h⟩ | ⟨hlo, hhi, h⟩ <;> rw [h]
  · simp only [hsm, hsl, true_iff, false_iff]
    omega
  · simp only [hsm.symm, hml, true_iff, false_iff]
    omega
  · simp only [hsl.symm, hml.symm, true_iff, false_iff]
    omega

/-- A duration at a threshold has the class below it, and one more the next class (R56, R57). -/
theorem byThresholds_at_thresholds (horder : lo < hi) (short middle long : ClassCode) :
    byThresholds lo hi short middle long lo = short ∧ byThresholds lo hi short middle long (lo + 1) = middle ∧
    byThresholds lo hi short middle long hi = middle ∧ byThresholds lo hi short middle long (hi + 1) = long :=
  ⟨byThresholds_of_le (Nat.le_refl lo), byThresholds_of_between (Nat.lt_succ_self lo) horder,
    byThresholds_of_between horder (Nat.le_refl hi),
    byThresholds_of_above (Nat.lt_succ_of_lt horder) (Nat.lt_succ_self hi)⟩

end

/-- On a TW-bit duration the zero-extended parameters give the class that the parameters themselves give (R57, decision
D37). -/
theorem byThresholds_zextTW_iff {c : Cfg} {v w : BitVec 32} {short middle long : ClassCode}
    (horder : v.toNat < w.toNat) (hdistinct : [short, middle, long].Nodup) {d : Nat} (hd : d < 2 ^ c.tickWidth) :
    (byThresholds (zextTW c v) (zextTW c w) short middle long d = short ↔ d ≤ v.toNat) ∧
    (byThresholds (zextTW c v) (zextTW c w) short middle long d = middle ↔ v.toNat < d ∧ d ≤ w.toNat) ∧
    (byThresholds (zextTW c v) (zextTW c w) short middle long d = long ↔ w.toNat < d) := by
  simpa only [le_zextTW_iff hd, zextTW_lt_iff hd] using byThresholds_iff (zextTW_mono c horder.le) hdistinct d

/-! ### The two modes -/

/-- Settles O15: the rule of two thresholds for either mode, whose thresholds R6 orders and whose classes differ. -/
theorem classesAreTotalAndOrdered : Obligations.ClassesAreTotalAndOrdered := by
  unfold Obligations.ClassesAreTotalAndOrdered
  intro c hlegal
  obtain ⟨-, -, -, -, hsignal, hgap, -⟩ := Cfg.legal_spec hlegal
  refine ⟨fun d => byThresholds_total _ _ .dot .dash .noise d,
    fun g => byThresholds_total _ _ .intraChar .charGap .wordGap g,
    fun d hd => byThresholds_zextTW_iff hsignal (by decide) hd,
    fun g hg => byThresholds_zextTW_iff hgap (by decide) hg, fun hfits => ?_⟩
  obtain ⟨-, hdot, hdash, hchar, hword⟩ := Cfg.zextTW_of_msFits hfits
  obtain ⟨hdotTie, hdotPast, hdashTie, hdashPast⟩ := byThresholds_at_thresholds hsignal .dot .dash .noise
  obtain ⟨hcharTie, hcharPast, hwordTie, hwordPast⟩ := byThresholds_at_thresholds hgap .intraChar .charGap .wordGap
  simp only [classifySignal_eq, classifyGap_eq, hdot, hdash, hchar, hword]
  exact ⟨hdotTie, hdotPast, hdashTie, hdashPast, hcharTie, hcharPast, hwordTie, hwordPast⟩

/-- CLASSIFY_SIGNAL drives its result line and leaves the rest of the state as it is (R54, R59). -/
theorem exec_classifySignal {s : State} (h : s.cfg.legal = true) (d : Nat) :
    exec (.classifySignal d) s = .next { s with classOut := some (classifySignal s.cfg d) } :=
  exec_of_legal h (.classifySignal d)

/-- CLASSIFY_GAP drives its result line and leaves the rest of the state as it is (R55, R59). -/
theorem exec_classifyGap {s : State} (h : s.cfg.legal = true) (g : Nat) :
    exec (.classifyGap g) s = .next { s with classOut := some (classifyGap s.cfg g) } :=
  exec_of_legal h (.classifyGap g)

/-- Settles O13: the three arms of the rule, on the result line. -/
theorem classifySignalByThresholds : Obligations.ClassifySignalByThresholds := by
  unfold Obligations.ClassifySignalByThresholds
  intro d s hlegal
  rw [exec_classifySignal hlegal, classifySignal_eq]
  refine ⟨fun hdot => ?_, fun hdot hdash => ?_, fun hdot hdash => ?_⟩
  · rw [byThresholds_of_le hdot]
  · rw [byThresholds_of_between hdot hdash]
  · rw [byThresholds_of_above hdot hdash]

/-- Settles O14: the three arms of the rule, on the result line. -/
theorem classifyGapByThresholds : Obligations.ClassifyGapByThresholds := by
  unfold Obligations.ClassifyGapByThresholds
  intro g s hlegal
  rw [exec_classifyGap hlegal, classifyGap_eq]
  refine ⟨fun hchar => ?_, fun hchar hword => ?_, fun hchar hword => ?_⟩
  · rw [byThresholds_of_le hchar]
  · rw [byThresholds_of_between hchar hword]
  · rw [byThresholds_of_above hchar hword]

end Sys2Proof.Machine
end

section
/-! The debounced edge detector (41_debounce.md R60–R64): one operation by R61's branches, and what a step, and a path of
steps without an event, do to `deb_pressed` and `deb_last`. -/

namespace Sys2Proof.Machine

/-! ### The operation -/

/-- The window of R61, strict as R100 says. -/
theorem debounceOpen_iff {s : State} :
    s.debounceOpen = true ↔ zextTW s.cfg s.cfg.debounceMs < elapsedMs s.cfg s.now s.debLast :=
  decide_eq_true_iff

theorem debounceOpen_eq_false_iff {s : State} :
    s.debounceOpen = false ↔ elapsedMs s.cfg s.now s.debLast ≤ zextTW s.cfg s.cfg.debounceMs := by
  rw [← Bool.not_eq_true, debounceOpen_iff, Nat.not_lt]

theorem acceptEdge_eq {s : State} {p : Bool} (h : s.pressedRaw = p) : s.acceptEdge =
    { s with debPressed := p, debLast := s.now, event := some ⟨edgeOf p, s.now⟩,
             txOut := s.txOut ++ [.evt (edgeOf p)] } := by
  subst h
  rfl

/-- R61 without a candidate, and R62: a candidate within the window is dropped. -/
theorem exec_debounceSample_of_not_accepted {s : State} (hlegal : s.cfg.legal = true)
    (h : s.pressedRaw = s.debPressed ∨ s.debounceOpen = false) :
    exec .debounceSample s = .next { s with event := none } := by
  rw [exec_of_legal hlegal]
  rcases debounceSample_cases s with ⟨hdiffers, hopen, -⟩ | ⟨-, hsame⟩
  · simp [hdiffers, hopen] at h
  · exact congrArg _ hsame

/-- R61: a candidate after the window is accepted. -/
theorem exec_debounceSample_of_accepted {s : State} (hlegal : s.cfg.legal = true)
    (hdiffers : s.pressedRaw ≠ s.debPressed) (hopen : s.debounceOpen = true) :
    exec .debounceSample s = .next s.acceptEdge := by
  rw [exec_of_legal hlegal]
  rcases debounceSample_cases s with ⟨-, -, haccepted⟩ | ⟨h, -⟩
  · exact congrArg _ haccepted
  · simp [hdiffers, hopen] at h

/-- Settles O16: two clauses answer no event, two accept an edge. -/
theorem debounceAcceptsOnlyAfterWindow : Obligations.DebounceAcceptsOnlyAfterWindow := by
  unfold Obligations.DebounceAcceptsOnlyAfterWindow
  intro s hlegal
  refine ⟨fun hequal => ?_, fun _ hwithin => ?_, fun hdown hdeb hafter => ?_, fun hup hdeb hafter => ?_⟩
  · exact exec_debounceSample_of_not_accepted hlegal (.inl hequal)
  · exact exec_debounceSample_of_not_accepted hlegal (.inr (debounceOpen_eq_false_iff.mpr hwithin))
  · have hraw : s.pressedRaw = true := by simp [State.pressedRaw, hdown]
    rw [exec_debounceSample_of_accepted hlegal (by simp [hraw, hdeb]) (debounceOpen_iff.mpr hafter), acceptEdge_eq hraw]
    rfl
  · have hraw : s.pressedRaw = false := by simp [State.pressedRaw, hup]
    rw [exec_debounceSample_of_accepted hlegal (by simp [hraw, hdeb]) (debounceOpen_iff.mpr hafter), acceptEdge_eq hraw]
    rfl

/-! ### The step -/

/-- `t` follows `s` by R61: no event, and the debounce registers of `s`; or, after the window, the event of the opposite
level at the tick of `t`, and the registers say so. -/
def Debounced (s t : State) : Prop :=
  (t.event = none ∧ t.debPressed = s.debPressed ∧ t.debLast = s.debLast) ∨
  (t.event = some ⟨edgeOf t.debPressed, t.now⟩ ∧ t.debPressed = (!s.debPressed) ∧ t.debLast = t.now ∧
    zextTW t.cfg t.cfg.debounceMs < elapsedMs t.cfg t.now s.debLast)

theorem txGapNext_debPressed (s : State) : s.txGapNext.debPressed = s.debPressed := by
  rcases txGapNext_cases s with ⟨k, h⟩ | ⟨-, -, -, h⟩ | ⟨-, -, -, h⟩ <;> rw [h]

theorem txGapNext_debLast (s : State) : s.txGapNext.debLast = s.debLast := by
  rcases txGapNext_cases s with ⟨k, h⟩ | ⟨-, -, -, h⟩ | ⟨-, -, -, h⟩ <;> rw [h]

/-- What the encoder makes of the event is not the detector's: all five accepting cases write the same debounce
registers. -/
theorem debounced_sampleAndEncode (s : State) : Debounced s (effect .debounceSample s).txEventNext := by
  rcases sampleAndEncode_cases s with h | ⟨hdeb, hopen, -, h⟩ | ⟨hdeb, hopen, -, h⟩ | ⟨hdeb, hopen, -, h⟩ |
    ⟨hdeb, hopen, -, -, y, -, h⟩ | ⟨hdeb, hopen, -, k, h⟩ <;> rw [h]
  case inl => exact .inl ⟨rfl, rfl, rfl⟩
  all_goals exact .inr ⟨rfl, by rw [hdeb]; rfl, rfl, debounceOpen_iff.mp hopen⟩

/-- A held step and a preamble step take no sample (R65), so the event wire stays as it was sampled. -/
theorem debounced_txNext {s : State} (hevent : s.event = none) : Debounced s s.txNext := by
  rcases txNext_cases s with ⟨-, h⟩ | ⟨-, -, y, -, h⟩ | ⟨-, -, h⟩ <;> rw [h]
  case inl => exact .inl ⟨hevent, rfl, rfl⟩
  case inr.inl => exact .inl ⟨hevent, rfl, rfl⟩
  case inr.inr =>
    simpa only [Debounced, txGapNext_debPressed, txGapNext_debLast] using debounced_sampleAndEncode s.txGapNext

theorem debounced_step {s t : State} (hstep : step s = .next t) (hrst : s.nextInputs.rst = false) : Debounced s t := by
  rcases step_cases hstep with ⟨hreset, -⟩ | ⟨-, rfl, hsame, -, hevent, -⟩
  · simp [hrst] at hreset
  · have hnow : s.sample.txNext.rxNext.now = s.sample.txNext.now := by simp [State.now]
    have hsent : Debounced s s.sample.txNext := debounced_txNext (State.sample_event s)
    simpa only [Debounced, hevent, hsame.debPressed, hsame.debLast, hsame.cfg, hnow] using hsent

/-- R104, R17: the window of a reset step starts at its tick. -/
theorem reset_step_debounce {s t : State} (hstep : step s = .next t) (hrst : s.nextInputs.rst = true) :
    t.event = none ∧ t.debPressed = false ∧ t.debLast = t.now := by
  rcases step_cases hstep with ⟨-, rfl⟩ | ⟨hrun, -⟩
  · exact ⟨rfl, rfl, rfl⟩
  · simp [hrst] at hrun

/-- R61: what a step that returns an event says of the state before it and after it. -/
theorem step_event_spec {s t : State} {e : ButtonEvent} (hstep : step s = .next t) (hevent : t.event = some e) :
    e.edge = edgeOf t.debPressed ∧ t.debPressed = (!s.debPressed) ∧ t.debLast = t.now ∧
    zextTW t.cfg t.cfg.debounceMs < elapsedMs t.cfg t.now s.debLast := by
  cases hrst : s.nextInputs.rst
  case false =>
    rcases debounced_step hstep hrst with ⟨hnone, -⟩ | ⟨haccepted, hflip, hlast, hwindow⟩
    · simp [hnone] at hevent
    · obtain rfl : ⟨edgeOf t.debPressed, t.now⟩ = e := by simpa [haccepted] using hevent
      exact ⟨rfl, hflip, hlast, hwindow⟩
  case true =>
    obtain ⟨hnone, -⟩ := reset_step_debounce hstep hrst
    simp [hnone] at hevent

/-! ### Paths without an event -/

theorem quiet_step_debounce {s t : State} (hstep : step s = .next t) (hquiet : t.Quiet) :
    t.debPressed = s.debPressed ∧ t.debLast = s.debLast := by
  obtain ⟨hevent, hrst⟩ := hquiet
  obtain ⟨-, hinp, -⟩ := step_environment hstep
  rcases debounced_step hstep (hinp ▸ hrst) with ⟨-, hkept⟩ | ⟨haccepted, -⟩
  · exact hkept
  · simp [hevent] at haccepted

/-- R61: without an event and without reset nothing writes the debounce registers. -/
theorem Steps.debounce_eq {t u : State} (path : Steps State.Quiet t u) :
    u.debPressed = t.debPressed ∧ u.debLast = t.debLast :=
  path.preserves (I := fun x => x.debPressed = t.debPressed ∧ x.debLast = t.debLast) (start := ⟨rfl, rfl⟩)
    fun ⟨hdeb, hlast⟩ hstep hquiet =>
      have ⟨hdeb', hlast'⟩ := quiet_step_debounce hstep hquiet
      ⟨hdeb'.trans hdeb, hlast'.trans hlast⟩

/-- The first event after `t`, however late, is decided by the debounce registers of `t` (R61, R63, R64). -/
theorem Steps.first_event_spec {t u v : State} {f : ButtonEvent} (path : Steps State.Quiet t u)
    (hstep : step u = .next v) (hevent : v.event = some f) :
    f.edge = edgeOf (!t.debPressed) ∧ zextTW v.cfg v.cfg.debounceMs < elapsedMs v.cfg v.now t.debLast := by
  obtain ⟨hdeb, hlast⟩ := path.debounce_eq
  obtain ⟨hedge, hflip, -, hwindow⟩ := step_event_spec hstep hevent
  rw [hflip, hdeb] at hedge
  rw [hlast] at hwindow
  exact ⟨hedge, hwindow⟩

theorem edgeOf_not_ne (p : Bool) : edgeOf (!p) ≠ edgeOf p := by
  cases p <;> decide

/-- Settles O39: the first event has left its own tick in `deb_last`. -/
theorem acceptedEventsAreAWindowApart : Obligations.AcceptedEventsAreAWindowApart := by
  unfold Obligations.AcceptedEventsAreAWindowApart
  intro s t u v hfirst hte path hnext hve
  obtain ⟨e, hte⟩ := Option.ne_none_iff_exists'.mp hte
  obtain ⟨f, hve⟩ := Option.ne_none_iff_exists'.mp hve
  obtain ⟨-, -, hlast, -⟩ := step_event_spec hfirst hte
  obtain ⟨-, hwindow⟩ := path.first_event_spec hnext hve
  rwa [hlast] at hwindow

/-- Settles O40: the first event has left its own level in `deb_pressed`. -/
theorem acceptedEventsAlternate : Obligations.AcceptedEventsAlternate := by
  unfold Obligations.AcceptedEventsAlternate
  intro s t u v e f hfirst hte path hnext hve
  obtain ⟨he, -⟩ := step_event_spec hfirst hte
  obtain ⟨hf, -⟩ := path.first_event_spec hnext hve
  rw [he, hf]
  exact edgeOf_not_ne t.debPressed

/-- Settles O41: a reset step leaves the level Released and its own tick in the debounce registers. -/
theorem firstEventAfterResetIsPressed : Obligations.FirstEventAfterResetIsPressed := by
  unfold Obligations.FirstEventAfterResetIsPressed
  intro s t u v f hrst hreset path hnext hve
  obtain ⟨-, hdeb, hlast⟩ := reset_step_debounce hreset hrst
  obtain ⟨hf, hwindow⟩ := path.first_event_spec hnext hve
  rw [hdeb] at hf
  rw [hlast] at hwindow
  exact ⟨hf, hwindow⟩

end Sys2Proof.Machine
end


section
/-! The operations of the symbol detector (42_symbol_detector.md R66–R73): one equation per branch of each. -/

namespace Sys2Proof.Machine

/-! ### Sending a symbol -/

/-- What EMIT_SYMBOL puts on the ports (R68). -/
def symbolOut (c : Cfg) (y : DotDash) : List TxEmit := [.tone y (freqOf c y) (toneMsOf c y), .tx (byteOf y)]

theorem emitSymbol_eq (s : State) (y : DotDash) :
    s.emitSymbol y = { s with txOut := s.txOut ++ symbolOut s.cfg y } := by
  simp [State.emitSymbol, State.emitTx, symbolOut]

/-- R67 where the pattern has a symbol left. -/
theorem exec_syncEmit {s : State} (hlegal : s.cfg.legal = true) {y : DotDash}
    (hnext : s.cfg.syncPattern[s.syncIdx]? = some y) :
    exec .syncEmit s = .next { s with syncIdx := s.syncIdx + 1, txOut := s.txOut ++ symbolOut s.cfg y } := by
  rw [exec_of_legal hlegal]
  simp only [effect, State.syncEmit, hnext, emitSymbol_eq]

/-- Settles O18: the two symbols the pattern can have at `sync_idx`. -/
theorem syncEmitSendsNextSymbol : Obligations.SyncEmitSendsNextSymbol := by
  unfold Obligations.SyncEmitSendsNextSymbol
  intro s hleft hlegal
  have hget := List.getElem?_eq_getElem hleft
  constructor
  · intro hdot
    exact exec_syncEmit hlegal (hget.trans (congrArg some hdot))
  · intro hdash
    exact exec_syncEmit hlegal (hget.trans (congrArg some hdash))

/-- Settles O19: `emitSymbol_eq` for either symbol. -/
theorem emitSymbolDrivesToneAndByte : Obligations.EmitSymbolDrivesToneAndByte := by
  unfold Obligations.EmitSymbolDrivesToneAndByte
  intro s hlegal
  rw [exec_of_legal hlegal, exec_of_legal hlegal]
  exact ⟨congrArg _ (emitSymbol_eq s .dot), congrArg _ (emitSymbol_eq s .dash)⟩

/-! ### Marking a gap -/

/-- A gap whose class needs no marker, or has it already, gets none (R69). -/
theorem markGap_eq_self {s : State} {k : ClassCode} (hword : k = .wordGap → s.spaceAdded = true)
    (hchar : k = .charGap → s.charMarked = true) : s.markGap k = s := by
  rcases markGap_cases s k with ⟨hk, hadded, -⟩ | ⟨hk, hmarked, -⟩ | ⟨-, -, h⟩
  · simp [hword hk] at hadded
  · simp [hchar hk] at hmarked
  · exact h

theorem markGap_charGap {s : State} (h : s.charMarked = false) :
    s.markGap .charGap = { s with txOut := s.txOut ++ [.gap .charGap], charMarked := true } := by
  rcases markGap_cases s .charGap with ⟨hk, -⟩ | ⟨-, -, hmark⟩ | ⟨-, hchar, -⟩
  · cases hk
  · exact hmark
  · simp [h] at hchar

theorem markGap_wordGap {s : State} (h : s.spaceAdded = false) : s.markGap .wordGap =
    { s with txOut := s.txOut ++ [.gap .wordGap], spaceAdded := true, charMarked := true, gapActive := false } := by
  rcases markGap_cases s .wordGap with ⟨-, -, hmark⟩ | ⟨hk, -⟩ | ⟨hword, -⟩
  · exact hmark
  · cases hk
  · simp [h] at hword

/-- R69 by the class of the silence. -/
theorem exec_gapEval {s t : State} (hlegal : s.cfg.legal = true) {k : ClassCode}
    (hclass : classifyGap s.cfg s.gapMs = k) (hmark : (s.driveClass k).markGap k = t) : exec .gapEval s = .next t := by
  rw [exec_of_legal hlegal, ← hmark, ← hclass]
  rfl

/-- Settles O20: an IntraChar gap needs no marker; a CharGap and a WordGap each need one or have it. -/
theorem gapEvalMarksUnmarkedGap : Obligations.GapEvalMarksUnmarkedGap := by
  unfold Obligations.GapEvalMarksUnmarkedGap
  intro s hlegal
  refine ⟨fun hchar => ?_, fun hchar hword hunmarked => ?_, fun hchar hword hmarked => ?_,
    fun hchar hword hunmarked => ?_, fun hchar hword hmarked => ?_⟩
  · exact exec_gapEval hlegal (byThresholds_of_le hchar) (markGap_eq_self nofun nofun)
  · exact exec_gapEval hlegal (byThresholds_of_between hchar hword) (markGap_charGap hunmarked)
  · exact exec_gapEval hlegal (byThresholds_of_between hchar hword) (markGap_eq_self nofun fun _ => hmarked)
  · exact exec_gapEval hlegal (byThresholds_of_above hchar hword) (markGap_wordGap hunmarked)
  · exact exec_gapEval hlegal (byThresholds_of_above hchar hword) (markGap_eq_self (fun _ => hmarked) nofun)

/-! ### The events -/

theorem evPressed_of_released {s : State} (h : s.wasPressed = false) :
    s.evPressed = { s with wasPressed := true, pressStart := s.now } := by
  simp [State.evPressed, h]

theorem evPressed_of_pressed {s : State} (h : s.wasPressed = true) : s.evPressed = s := by
  simp [State.evPressed, h]

theorem evReleased_of_released {s : State} (h : s.wasPressed = false) : s.evReleased = s := by
  rcases evReleased_cases s with ⟨-, hignored⟩ | ⟨hw, -⟩ | ⟨hw, -⟩ | ⟨hw, -⟩
  · exact hignored
  all_goals simp [h] at hw

/-- R72: a bounce. -/
theorem evReleased_of_bounce {s : State} (hpressed : s.wasPressed = true)
    (hshort : s.pressMs ≤ zextTW s.cfg s.cfg.debounceMs) : s.evReleased = { s with wasPressed := false } := by
  rcases evReleased_cases s with ⟨hw, -⟩ | ⟨-, hlong, -⟩ | ⟨-, hlong, -⟩ | ⟨-, -, h⟩
  · simp [hpressed] at hw
  · exact absurd hshort hlong.not_ge
  · exact absurd hshort hlong.not_ge
  · exact h

/-- R72: a Noise press. -/
theorem evReleased_of_noise {s : State} (hpressed : s.wasPressed = true)
    (hlong : zextTW s.cfg s.cfg.debounceMs < s.pressMs) (hclass : classifySignal s.cfg s.pressMs = .noise) :
    s.evReleased = { s with wasPressed := false, classOut := some .noise } := by
  rcases evReleased_cases s with ⟨hw, -⟩ | ⟨-, -, y, hy, -⟩ | ⟨-, -, -, h⟩ | ⟨-, hshort, -⟩
  · simp [hpressed] at hw
  · simp [hclass, symOfClass] at hy
  · exact h
  · exact absurd hshort hlong.not_ge

/-- R71: a press that is a symbol sends it and starts a gap. -/
theorem evReleased_of_symbol {s : State} {k : ClassCode} {y : DotDash} (hpressed : s.wasPressed = true)
    (hlong : zextTW s.cfg s.cfg.debounceMs < s.pressMs) (hclass : classifySignal s.cfg s.pressMs = k)
    (hsym : symOfClass k = some y) : s.evReleased =
      { s with wasPressed := false, gapActive := true, releaseTime := s.now, charMarked := false,
               spaceAdded := false, classOut := some k, txOut := s.txOut ++ symbolOut s.cfg y } := by
  subst hclass
  rcases evReleased_cases s with ⟨hw, -⟩ | ⟨-, -, y', hy', h⟩ | ⟨-, -, hnoise, -⟩ | ⟨-, hshort, -⟩
  · simp [hpressed] at hw
  · obtain rfl : y = y' := Option.some.inj (hsym.symm.trans hy')
    exact h
  · simp [hnoise, symOfClass] at hsym
  · exact absurd hshort hlong.not_ge

/-- Settles O21. -/
theorem pressedEventStartsPress : Obligations.PressedEventStartsPress := by
  unfold Obligations.PressedEventStartsPress
  intro s hlegal hreleased
  rw [exec_of_legal hlegal]
  exact congrArg _ (evPressed_of_released hreleased)

/-- Settles O24: the two ignored branches. -/
theorem mismatchedEventIsIgnored : Obligations.MismatchedEventIsIgnored := by
  unfold Obligations.MismatchedEventIsIgnored
  intro s hlegal
  rw [exec_of_legal hlegal, exec_of_legal hlegal]
  exact ⟨fun hpressed => congrArg _ (evPressed_of_pressed hpressed),
    fun hreleased => congrArg _ (evReleased_of_released hreleased)⟩

/-- Settles O22: a branch of EV_RELEASED for each clause, with the class of the press by R54. -/
theorem releasedEventSendsSymbol : Obligations.ReleasedEventSendsSymbol := by
  unfold Obligations.ReleasedEventSendsSymbol
  intro s hlegal
  rw [exec_of_legal hlegal]
  refine ⟨fun hreleased => ?_, fun hpressed hshort => ?_, fun hpressed hlong => ⟨fun hdot => ?_, fun hdot hdash => ?_,
    fun hdot hdash => ?_⟩⟩ <;> refine congrArg _ ?_
  · exact evReleased_of_released hreleased
  · exact evReleased_of_bounce hpressed hshort
  · exact evReleased_of_symbol hpressed hlong (byThresholds_of_le hdot) rfl
  · exact evReleased_of_symbol hpressed hlong (byThresholds_of_between hdot hdash) rfl
  · exact evReleased_of_noise hpressed hlong (byThresholds_of_above hdot hdash)

/-- Settles O23: DISCARD is its one write, and the two discarding branches of EV_RELEASED are `evReleased_of_bounce` and
`evReleased_of_noise`. -/
theorem discardOnlyClearsWasPressed : Obligations.DiscardOnlyClearsWasPressed := by
  unfold Obligations.DiscardOnlyClearsWasPressed
  intro s hlegal
  rw [exec_of_legal hlegal, exec_of_legal hlegal]
  exact ⟨rfl, fun hpressed hshort => congrArg _ (evReleased_of_bounce hpressed hshort),
    fun hpressed hlong hnoise => congrArg _ (evReleased_of_noise hpressed hlong hnoise)⟩

/-! ### The order of the transmit side -/

/-- R65 in a held step. -/
theorem txStep_of_busy {s : State} (hbusy : s.inp.toneBusy = true) : txStep s = exec .txHold s := if_pos hbusy

/-- R65 in a preamble step. -/
theorem txStep_of_preamble {s : State} (hfree : s.inp.toneBusy = false) (hleft : s.syncIdx < s.cfg.syncLen) :
    txStep s = exec .syncEmit s := by
  simp [txStep, hfree, State.inPreamble, hleft]

/-- R65 in a step that takes a sample. -/
theorem txStep_of_sampling {s : State} (hfree : s.inp.toneBusy = false) (hover : s.cfg.syncLen ≤ s.syncIdx) :
    txStep s = andThen (andThen (txGap s) (exec .debounceSample)) txEvent := by
  simp [txStep, hfree, State.inPreamble, Nat.not_lt.mpr hover]

/-- GAP_EVAL answers `g` where it is selected, and `g` is the state itself where it is not (R65). -/
theorem txGap_eq_next {s g : State}
    (h : (s.wasPressed = false ∧ s.gapActive = true ∧ exec .gapEval s = .next g) ∨
      (¬ (s.wasPressed = false ∧ s.gapActive = true) ∧ g = s)) : txGap s = .next g := by
  rcases h with ⟨hreleased, hactive, hg⟩ | ⟨hunselected, rfl⟩
  · simp [txGap, State.gapEvalSelected, hreleased, hactive, hg]
  · simpa [txGap, State.gapEvalSelected] using fun hreleased hactive => absurd ⟨hreleased, hactive⟩ hunselected

/-- Settles O26: the encoder's answer depends on the event of the sampled state alone. -/
theorem transmitSideOrder : Obligations.TransmitSideOrder := by
  unfold Obligations.TransmitSideOrder
  intro s _
  refine ⟨txStep_of_busy, txStep_of_preamble, fun hfree hover g d hgap hsample => ?_⟩
  have horder : txStep s = txEvent d := by
    rw [txStep_of_sampling hfree hover, txGap_eq_next hgap, andThen_next, hsample, andThen_next]
  rw [horder]
  refine ⟨fun hevent => ?_, fun k hevent => ?_, fun k hevent => ?_⟩ <;> simp only [txEvent, hevent]

/-- Settles O17: R65 selects TX_HOLD whatever else holds, and TX_HOLD has no effect. -/
theorem holdChangesNothing : Obligations.HoldChangesNothing := by
  unfold Obligations.HoldChangesNothing
  intro s hlegal
  have hhold : exec .txHold s = .next s := exec_of_legal hlegal .txHold
  exact ⟨hhold, fun hbusy => (txStep_of_busy hbusy).trans hhold⟩

end Sys2Proof.Machine
end

section
/-! What a step sends on the transmit side (42_symbol_detector.md R65, R68–R71, R74): nothing but a debounced event, or a
gap marker with the event after it, or a symbol with the event before it; and which of the two markers of a gap are out. -/

namespace Sys2Proof.Machine

/-! ### The markers of a gap -/

/-- The marker `k` of the gap is out (R69): a WordGap marker leaves no CharGap marker to come either. -/
def State.Marked (s : State) : GapKind → Prop
  | .charGap => s.charMarked = true
  | .wordGap => s.charMarked = true ∧ s.spaceAdded = true

theorem State.Marked.charMarked {s : State} {k : GapKind} (h : s.Marked k) : s.charMarked = true := by
  cases k
  case charGap => exact h
  case wordGap => exact h.1

/-- The two states agree on the markers that are out. -/
def SameMarks (s t : State) : Prop := t.charMarked = s.charMarked ∧ t.spaceAdded = s.spaceAdded

theorem SameMarks.marked_iff {s t : State} (h : SameMarks s t) (k : GapKind) : t.Marked k ↔ s.Marked k := by
  obtain ⟨hchar, hspace⟩ := h
  cases k <;> simp only [State.Marked, hchar, hspace]

/-- From `s` to `t` the marker `k` is sent (R69): it was not out, it is now, and no marker is taken back. -/
structure SendsMarker (k : GapKind) (s t : State) : Prop where
  unmarked : ¬ s.Marked k
  marked : t.Marked k
  kept : ∀ j, s.Marked j → t.Marked j

theorem SendsMarker.congr {k : GapKind} {s s' t t' : State} (h : SendsMarker k s t) (hs : SameMarks s' s)
    (ht : SameMarks t t') : SendsMarker k s' t' where
  unmarked hk := h.unmarked ((hs.marked_iff k).mpr hk)
  marked := (ht.marked_iff k).mpr h.marked
  kept j hj := (ht.marked_iff j).mpr (h.kept j ((hs.marked_iff j).mpr hj))

/-- Gap evaluation sends at most one marker, and only while no press is on (R65, R69). -/
theorem txGapNext_sends (s : State) :
    (s.txGapNext.txOut = s.txOut ∧ SameMarks s s.txGapNext) ∨
    (s.wasPressed = false ∧ ∃ k, s.txGapNext.txOut = s.txOut ++ [.gap k] ∧ SendsMarker k s s.txGapNext) := by
  rcases txGapNext_cases s with ⟨k, h⟩ | ⟨hreleased, -, hunmarked, h⟩ | ⟨hreleased, -, hunmarked, h⟩ <;> rw [h]
  · exact .inl ⟨rfl, rfl, rfl⟩
  · refine .inr ⟨hreleased, .charGap, rfl, by simp [State.Marked, hunmarked], rfl, fun j hj => ?_⟩
    cases j
    case charGap => rfl
    case wordGap => exact ⟨rfl, hj.2⟩
  · refine .inr ⟨hreleased, .wordGap, rfl, by simp [State.Marked, hunmarked], ⟨rfl, rfl⟩, fun j _ => ?_⟩
    cases j
    case charGap => rfl
    case wordGap => exact ⟨rfl, rfl⟩

theorem txGapNext_wasPressed (s : State) : s.txGapNext.wasPressed = s.wasPressed := by
  rcases txGapNext_cases s with ⟨k, h⟩ | ⟨-, -, -, h⟩ | ⟨-, -, -, h⟩ <;> rw [h]

/-! ### The sample, the transmit side and the step -/

/-- The sample and the encoder send at most one event, and after it a symbol only where a press was on (R71). -/
theorem sampleAndEncode_sends (s : State) :
    ∃ edge : Option Edge,
      ((effect .debounceSample s).txEventNext.txOut = s.txOut ++ edge.toList.map .evt ∧
        SameMarks s (effect .debounceSample s).txEventNext) ∨
      (s.wasPressed = true ∧ ∃ y, (effect .debounceSample s).txEventNext.txOut =
        s.txOut ++ (edge.toList.map .evt ++ symbolOut s.cfg y)) := by
  rcases sampleAndEncode_cases s with h | ⟨-, -, -, h⟩ | ⟨-, -, -, h⟩ | ⟨-, -, -, h⟩ | ⟨-, -, hpressed, -, y, -, h⟩ |
    ⟨-, -, -, k, h⟩ <;> rw [h]
  · exact ⟨none, .inl ⟨(List.append_nil _).symm, rfl, rfl⟩⟩
  · exact ⟨some .pressed, .inl ⟨rfl, rfl, rfl⟩⟩
  · exact ⟨some .pressed, .inl ⟨rfl, rfl, rfl⟩⟩
  · exact ⟨some .released, .inl ⟨rfl, rfl, rfl⟩⟩
  · exact ⟨some .released, .inr ⟨hpressed, y, rfl⟩⟩
  · exact ⟨some .released, .inl ⟨rfl, rfl, rfl⟩⟩

/-- What the transmit side sends between `s`, where nothing is sent yet, and `t`. -/
inductive Sends (s t : State) : Prop where
  | symbol (edge : Option Edge) (y : DotDash) (out : t.txOut = edge.toList.map .evt ++ symbolOut t.cfg y)
  | marker (k : GapKind) (edge : Option Edge) (out : t.txOut = .gap k :: edge.toList.map .evt)
      (marks : SendsMarker k s t)
  | event (edge : Option Edge) (out : t.txOut = edge.toList.map .evt) (marks : SameMarks s t)

/-- A marker needs that no press is on and a symbol that one is, so no step sends both (R69, R71, R74). -/
theorem sends_sampling {s : State} (hempty : s.txOut = []) : Sends s (effect .debounceSample s.txGapNext).txEventNext := by
  obtain ⟨edge, ⟨hout, hmarks⟩ | ⟨hpressed, y, hout⟩⟩ := sampleAndEncode_sends s.txGapNext
  · rcases txGapNext_sends s with ⟨hgap, hsame⟩ | ⟨-, k, hgap, hsends⟩
    · exact .event edge (by simp [hout, hgap, hempty]) ⟨hmarks.1.trans hsame.1, hmarks.2.trans hsame.2⟩
    · exact .marker k edge (by simp [hout, hgap, hempty]) (hsends.congr ⟨rfl, rfl⟩ hmarks)
  · rw [txGapNext_wasPressed] at hpressed
    rcases txGapNext_sends s with ⟨hgap, -⟩ | ⟨hreleased, -⟩
    · exact .symbol edge y (by simp [hout, hgap, hempty])
    · simp [hpressed] at hreleased

theorem sends_txNext {s : State} (hempty : s.txOut = []) : Sends s s.txNext := by
  rcases txNext_cases s with ⟨-, h⟩ | ⟨-, -, y, -, h⟩ | ⟨-, -, h⟩ <;> rw [h]
  · exact .event none hempty ⟨rfl, rfl⟩
  · exact .symbol none y (by rw [hempty]; rfl)
  · exact sends_sampling hempty

/-- A reset step sends nothing (R104); any other sends what its transmit side sends. -/
theorem step_sends {s t : State} (hstep : step s = .next t) : (t.inp.rst = true ∧ t.txOut = []) ∨ Sends s t := by
  rcases step_cases hstep with ⟨hrst, rfl⟩ | ⟨-, -, hsame, hout, -⟩
  · exact .inl ⟨hrst, rfl⟩
  · have hmarks : SameMarks s.sample.txNext t := ⟨hsame.charMarked, hsame.spaceAdded⟩
    rcases sends_txNext (State.sample_txOut s) with ⟨edge, y, h⟩ | ⟨k, edge, h, hsends⟩ | ⟨edge, h, hkept⟩
    · exact .inr (.symbol edge y (by rw [hout, hsame.cfg, h]))
    · exact .inr (.marker k edge (hout.trans h) (hsends.congr ⟨rfl, rfl⟩ hmarks))
    · exact .inr (.event edge (hout.trans h) ⟨hmarks.1.trans hkept.1, hmarks.2.trans hkept.2⟩)

/-! ### R74 and R68 -/

/-- Settles O36: what each kind of step sends, counted. -/
theorem transmitEmitsSymbolOrMarker : Obligations.TransmitEmitsSymbolOrMarker := by
  unfold Obligations.TransmitEmitsSymbolOrMarker
  intro s t hstep
  rcases step_sends hstep with ⟨-, hout⟩ | ⟨edge, y, hout⟩ | ⟨k, edge, hout, -⟩ | ⟨edge, hout, -⟩ <;> rw [hout]
  · simp
  all_goals cases edge <;> simp [symbolOut, List.countP_cons, TxEmit.isTx, TxEmit.isGap, TxEmit.isTone, TxEmit.isEvt]

/-- Settles O37: only a symbol drives either port, and it drives both. -/
theorem tonePortMatchesSerialByte : Obligations.TonePortMatchesSerialByte := by
  unfold Obligations.TonePortMatchesSerialByte
  intro s t hstep
  unfold State.tonePort State.txPort
  rcases step_sends hstep with ⟨-, hout⟩ | ⟨edge, y, hout⟩ | ⟨k, edge, hout, -⟩ | ⟨edge, hout, -⟩ <;> rw [hout]
  · exact .inl ⟨rfl, rfl⟩
  · cases y
    case dot => exact .inr (.inl (by cases edge <;> exact ⟨rfl, rfl⟩))
    case dash => exact .inr (.inr (by cases edge <;> exact ⟨rfl, rfl⟩))
  · exact .inl (by cases edge <;> exact ⟨rfl, rfl⟩)
  · exact .inl (by cases edge <;> exact ⟨rfl, rfl⟩)

/-! ### Each marker once per gap -/

/-- R69: a step sends a marker only where it was not out, and leaves it out. -/
theorem step_marker_spec {s t : State} {k : GapKind} (hstep : step s = .next t) (hsent : TxEmit.gap k ∈ t.txOut) :
    ¬ s.Marked k ∧ t.Marked k := by
  rcases step_sends hstep with ⟨-, hout⟩ | ⟨edge, y, hout⟩ | ⟨j, edge, hout, hsends⟩ | ⟨edge, hout, -⟩ <;>
    rw [hout] at hsent
  · simp at hsent
  · simp [symbolOut] at hsent
  · obtain rfl : k = j := by simpa using hsent
    exact ⟨hsends.unmarked, hsends.marked⟩
  · simp at hsent

/-- R71: only a symbol, or a reset, takes a marker back. -/
theorem step_keeps_marked {s t : State} {k : GapKind} (hmarked : s.Marked k) (hstep : step s = .next t)
    (hunsent : t.sentSymbol = false) (hrst : t.inp.rst = false) : t.Marked k := by
  rcases step_sends hstep with ⟨hreset, -⟩ | ⟨edge, y, hout⟩ | ⟨j, edge, -, hsends⟩ | ⟨edge, -, hmarks⟩
  · simp [hrst] at hreset
  · simp [State.sentSymbol, hout, symbolOut, TxEmit.isTx] at hunsent
  · exact hsends.kept k hmarked
  · exact (hmarks.marked_iff k).mpr hmarked

/-- Settles O43: the marker that is out stays out along the path, and so bars itself; a WordGap marker bars the CharGap
marker too, since it leaves that one out as well. -/
theorem eachMarkerOncePerGap : Obligations.EachMarkerOncePerGap := by
  unfold Obligations.EachMarkerOncePerGap
  intro s t u v k hfirst hsent path hnext
  obtain ⟨-, hmarked⟩ := step_marker_spec hfirst hsent
  have hstill : u.Marked k := path.preserves (I := fun x => x.Marked k) (start := hmarked)
    fun hmarked hstep ⟨hunsent, hrst⟩ => step_keeps_marked hmarked hstep hunsent hrst
  refine ⟨fun hagain => (step_marker_spec hnext hagain).1 hstill, fun _ hchar => ?_⟩
  exact (step_marker_spec hnext hchar).1 hstill.charMarked

/-! ### The encoder over whole steps -/

/-- Settles O42: the invariant ties the encoder to the detector before the step and after it, so the edge of the event says
which of `was_pressed` it met (R75). -/
theorem everyEventFitsTheEncoder : Obligations.EveryEventFitsTheEncoder := by
  unfold Obligations.EveryEventFitsTheEncoder
  intro s t e hinv hstep hevent
  obtain ⟨hedge, hflip, hlast, hwindow⟩ := step_event_spec hstep hevent
  have hbefore := hinv.tx
  have hafter := (stepKeepsInv s t hinv hstep).tx
  have hwas : t.wasPressed = !s.wasPressed := by rw [hafter.wasPressed, hbefore.wasPressed, hflip]
  rw [hedge, ← hafter.wasPressed, hwas]
  cases hpressed : s.wasPressed
  case false =>
    have hstart : t.pressStart = t.now := (hafter.pressStart (by simp [hwas, hpressed])).trans hlast
    exact ⟨fun _ => ⟨rfl, rfl, hstart⟩, nofun⟩
  case true =>
    have hstart := hbefore.pressStart hpressed
    exact ⟨nofun, fun _ => ⟨rfl, rfl, hstart, hstart ▸ hwindow⟩⟩

/-- R66: a held step writes no transmit register and sends nothing. -/
theorem held_step {s t : State} (hstep : step s = .next t) (hbusy : t.inp.toneBusy = true) (hrst : t.inp.rst = false) :
    SameTx t s ∧ t.txOut = [] ∧ t.event = none := by
  obtain ⟨-, hinp, -⟩ := step_environment hstep
  rw [hinp] at hbusy hrst
  rcases step_cases hstep with ⟨hreset, -⟩ | ⟨-, -, hsame, hout, hevent, -⟩
  · simp [hrst] at hreset
  · have hheld : s.sample.txNext = s.sample := if_pos hbusy
    rw [hheld] at hsame hout hevent
    exact ⟨hsame.trans (sample_sameTx s), hout, hevent⟩

/-- Settles O45: `held_step` along the path, and once more for the step after it, which is silent in reset too (R104). -/
theorem busySinkFreezesTransmitSide : Obligations.BusySinkFreezesTransmitSide := by
  unfold Obligations.BusySinkFreezesTransmitSide
  intro s t path
  have hpath : SameTx s t := path.preserves (I := SameTx s) (start := SameTx.refl s)
    fun hsame hstep ⟨hbusy, hrst⟩ =>
      have ⟨hheld, _⟩ := held_step hstep hbusy hrst
      hsame.trans hheld.symm
  refine ⟨hpath, fun u hstep hbusy => ?_⟩
  rcases step_cases hstep with ⟨-, rfl⟩ | ⟨hrst, -⟩
  · exact ⟨rfl, rfl⟩
  · obtain ⟨-, hinp, -⟩ := step_environment hstep
    obtain ⟨-, hsilent⟩ := held_step hstep hbusy (hinp ▸ hrst)
    exact hsilent

end Sys2Proof.Machine
end

section
/-! The round trip of a letter (42_symbol_detector.md R76, 43_rx_framing.md R87): the tone of a symbol is reclassified to
the symbol, and the bytes of a pattern, framed by `C`, come out as the letter of its row. -/

namespace Sys2Proof.Machine

/-! ### The tone of a symbol -/

/-- Each tone, where it lies in the interval of its class, is a press of that class (R54, R76). -/
theorem classifySignal_toneMs {c : Cfg} (hlegal : c.legal = true) (hfits : c.dashToneMs.toNat < 2 ^ c.tickWidth)
    (hdot : c.dotToneMs.toNat ≤ c.dotThresholdMs.toNat) (hbetween : c.dotThresholdMs.toNat < c.dashToneMs.toNat)
    (hdash : c.dashToneMs.toNat ≤ c.dashThresholdMs.toNat) (y : DotDash) :
    symOfClass (classifySignal c (toneMsOf c y).toNat) = some y := by
  obtain ⟨-, -, -, -, hsignal, -⟩ := Cfg.legal_spec hlegal
  have hclass (d : Nat) (hd : d < 2 ^ c.tickWidth) :=
    byThresholds_zextTW_iff (short := .dot) (middle := .dash) (long := .noise) hsignal (by decide) hd
  cases y
  case dot =>
    have hdotClass : classifySignal c c.dotToneMs.toNat = .dot := (hclass _ (by omega)).1.mpr hdot
    exact congrArg symOfClass hdotClass
  case dash =>
    have hdashClass : classifySignal c c.dashToneMs.toNat = .dash := (hclass _ hfits).2.1.mpr ⟨hbetween, hdash⟩
    exact congrArg symOfClass hdashClass

/-- Each tone is longer than the debounce window, so it is no bounce (R72, R76). -/
theorem debounce_lt_toneMs {c : Cfg} (hdebounce : c.debounceMs.toNat < c.dotToneMs.toNat)
    (horder : c.dotToneMs.toNat ≤ c.dashToneMs.toNat) (y : DotDash) :
    zextTW c c.debounceMs < (toneMsOf c y).toNat := by
  have hext : zextTW c c.debounceMs ≤ c.debounceMs.toNat := Nat.min_le_left _ _
  cases y <;> simp only [toneMsOf] <;> omega

/-! ### Operations one after another -/

/-- Under a legal configuration a list of operations is the composition of their effects. -/
theorem execAll_of_legal (is : List Instr) {s : State} (hlegal : s.cfg.legal = true) :
    execAll is s = .next (is.foldl (fun t i => effect i t) s) := by
  induction is generalizing s with
  | nil => rfl
  | cons i is ih => rw [execAll, exec_of_legal hlegal, andThen_next, ih (by simpa using hlegal), List.foldl_cons]

/-- The byte of a symbol is received as the symbol (R42, R44, R80). -/
theorem effect_decodeByte_byteOf (y : DotDash) (s : State) : effect (decodeByte (byteOf y)) s = s.rxSignal y := by
  cases y <;> rfl

theorem foldl_effect_signals (ys : List DotDash) (s : State) :
    (ys.map fun y => decodeByte (byteOf y)).foldl (fun t i => effect i t) s = ys.foldl State.rxSignal s := by
  simp only [List.foldl_map, effect_decodeByte_byteOf]

/-! ### Collecting a character -/

/-- The symbols `ys` of the character at hand are collected: the buffer begins with them, and a character is pending
exactly where there is one. -/
structure State.Collected (s : State) (ys : List DotDash) : Prop where
  capacity : s.buf.length = s.cfg.morseCap
  begins : ∃ rest, s.buf = ys ++ rest
  pending : (s.accumulating = false ∧ ys = []) ∨ (s.accumulating = true ∧ s.bufLen = ys.length)

/-- A symbol that finds room is put right after the symbols collected (R80). -/
theorem State.Collected.rxSignal {s : State} {ys : List DotDash} (h : s.Collected ys)
    (hroom : ys.length < s.cfg.morseCap) (y : DotDash) : (s.rxSignal y).Collected (ys ++ [y]) := by
  obtain ⟨hcap, ⟨rest, hbuf⟩, hpending⟩ := h
  obtain ⟨z, rest, rfl⟩ : ∃ z rest', rest = z :: rest' := by
    refine List.exists_cons_of_ne_nil fun hnil => ?_
    rw [hbuf, hnil, List.append_nil] at hcap
    omega
  have hset : s.buf.set ys.length y = ys ++ [y] ++ rest := by simp [hbuf]
  have hlen : (ys ++ [y] ++ rest).length = s.cfg.morseCap := by rw [← hset, List.length_set, hcap]
  rcases rxSignal_cases s y with ⟨hacc, -, hs⟩ | ⟨-, hnone, -⟩ | ⟨hacc, -, hs⟩ | ⟨hacc, hfull, -⟩
  · obtain rfl : ys = [] := by simpa [hacc] using hpending
    rw [hs]
    exact ⟨by rw [← hlen, ← hset]; rfl, ⟨rest, hset⟩, .inr ⟨rfl, rfl⟩⟩
  · omega
  · have hbufLen : s.bufLen = ys.length := by simpa [hacc] using hpending
    rw [hs, hbufLen, hset]
    exact ⟨hlen, ⟨rest, rfl⟩, .inr ⟨hacc, by simp⟩⟩
  · have hbufLen : s.bufLen = ys.length := by simpa [hacc] using hpending
    omega

/-- RX_SIGNAL leaves the transmit outputs alone (R39). -/
@[simp] theorem rxSignal_txOut (s : State) (y : DotDash) : (s.rxSignal y).txOut = s.txOut := by
  rcases rxSignal_cases s y with ⟨-, -, h⟩ | ⟨-, -, h⟩ | ⟨-, -, h⟩ | ⟨-, -, h⟩ <;> rw [h]

theorem foldl_rxSignal_frame (ys : List DotDash) (s : State) :
    (ys.foldl State.rxSignal s).cfg = s.cfg ∧ (ys.foldl State.rxSignal s).rxOut = s.rxOut ∧
      (ys.foldl State.rxSignal s).txOut = s.txOut := by
  induction ys generalizing s with
  | nil => exact ⟨rfl, rfl, rfl⟩
  | cons y ys ih => simpa using ih (s.rxSignal y)

theorem State.Collected.foldl_rxSignal {s : State} {done : List DotDash} (h : s.Collected done) (ys : List DotDash)
    (hroom : done.length + ys.length ≤ s.cfg.morseCap) : (ys.foldl State.rxSignal s).Collected (done ++ ys) := by
  induction ys generalizing s done with
  | nil => simpa using h
  | cons y ys ih =>
    rw [List.length_cons] at hroom
    have hnext := h.rxSignal (by omega) y
    simpa using ih hnext (by simp only [List.length_append, List.length_singleton, rxSignal_cfg]; omega)

/-- `C` after the pattern of a row decodes to the row's letter and leaves no character pending (R81, R86, R87). -/
theorem State.Collected.rxCharEnd {s : State} (hlegal : s.cfg.legal = true) {r : DecodeRow}
    (hr : r ∈ s.cfg.decodeTable) (h : s.Collected r.pattern) :
    s.rxCharEnd = { s with rxOut := s.rxOut ++ [.char .letter r.code], bufLen := 0, accumulating := false } := by
  obtain ⟨-, ⟨rest, hbuf⟩, hpending⟩ := h
  obtain ⟨-, -, -, -, -, -, hpattern, -, -, hdistinct⟩ := Cfg.legal_spec hlegal
  have hne := (hpattern r hr).1
  rcases hpending with ⟨-, hnil⟩ | ⟨hacc, hbufLen⟩
  · simp [hnil] at hne
  · have hlookup : lookup s.cfg s.buf s.bufLen = (.letter, r.code) := by
      rw [hbuf, hbufLen, lookup_pattern_append hdistinct hr]
    rcases rxCharEnd_cases s with ⟨-, -, hs⟩ | ⟨hidle, -⟩
    · rw [hs, State.decodeAndClear, hlookup]
      rfl
    · simp only [hacc, Bool.true_eq_false, or_false] at hidle
      omega

/-- The bytes of a row's pattern and `C` emit the row's letter, from a receiver with no character pending. -/
theorem execAll_pattern {s : State} (hlegal : s.cfg.legal = true) {r : DecodeRow} (hr : r ∈ s.cfg.decodeTable)
    (hidle : s.accumulating = false) (hcap : s.buf.length = s.cfg.morseCap) :
    ∃ t, execAll ((r.pattern.map fun y => decodeByte (byteOf y)) ++ [.rxCharEnd]) s = .next t ∧
      t.rxOut = s.rxOut ++ [.char .letter r.code] ∧ t.accumulating = false ∧ t.bufLen = 0 ∧ t.txOut = s.txOut := by
  obtain ⟨-, -, -, -, -, -, hpattern, -⟩ := Cfg.legal_spec hlegal
  obtain ⟨hcfg, hrxOut, htxOut⟩ := foldl_rxSignal_frame r.pattern s
  have hstart : s.Collected [] := ⟨hcap, ⟨s.buf, rfl⟩, .inl ⟨hidle, rfl⟩⟩
  have hcollected : (r.pattern.foldl State.rxSignal s).Collected r.pattern :=
    hstart.foldl_rxSignal r.pattern (by simpa using (hpattern r hr).2)
  have hend := hcollected.rxCharEnd (hcfg ▸ hlegal) (hcfg ▸ hr)
  refine ⟨(r.pattern.foldl State.rxSignal s).rxCharEnd, ?_, ?_⟩
  · rw [execAll_of_legal _ hlegal, List.foldl_append, foldl_effect_signals]
    rfl
  · rw [hend]
    exact ⟨by rw [hrxOut], rfl, rfl, htxOut⟩

/-- Settles O50: reclassified symbol by symbol the pattern is itself, and `execAll_pattern` receives it. -/
theorem letterRoundTrip : Obligations.LetterRoundTrip := by
  unfold Obligations.LetterRoundTrip
  intro s r hlegal hfits hdebounce hdot hbetween hdash hidle hcap hr
  have hclass := classifySignal_toneMs hlegal hfits hdot hbetween hdash
  have hpattern : r.pattern.filterMap (fun y => symOfClass (classifySignal s.cfg (toneMsOf s.cfg y).toNat)) =
      r.pattern := by
    simp only [hclass, List.filterMap_some]
  rw [hpattern]
  exact ⟨fun y => ⟨debounce_lt_toneMs hdebounce (hdot.trans hbetween.le) y, hclass y⟩,
    execAll_pattern hlegal hr hidle hcap⟩

end Sys2Proof.Machine
end

section
/-! The operations of the receive framing controller (43_rx_framing.md R78–R85): one equation per branch of each, and
the clauses of the command bytes and of the timeouts. -/

namespace Sys2Proof.Machine

/-! ### A symbol -/

/-- R80 where no character is pending: R90's room for one symbol is what keeps the first symbol from being dropped. -/
theorem rxSignal_of_idle {s : State} (hlegal : s.cfg.legal = true) (hidle : s.accumulating = false) (y : DotDash) :
    s.rxSignal y = { s with accumulating := true, buf := s.buf.set 0 y, bufLen := 1, lastSignal := s.now,
                            inWord := true, spaceEmitted := false } := by
  have hroom := Cfg.one_le_morseCap hlegal
  rcases rxSignal_cases s y with ⟨-, -, h⟩ | ⟨-, hnone, -⟩ | ⟨hacc, -⟩ | ⟨hacc, -⟩
  · exact h
  · omega
  all_goals simp [hidle] at hacc

theorem rxSignal_of_room {s : State} (hpending : s.accumulating = true) (hroom : s.bufLen < s.cfg.morseCap)
    (y : DotDash) :
    s.rxSignal y = { s with buf := s.buf.set s.bufLen y, bufLen := s.bufLen + 1, lastSignal := s.now, inWord := true,
                            spaceEmitted := false } := by
  rcases rxSignal_cases s y with ⟨hidle, -⟩ | ⟨hidle, -⟩ | ⟨-, -, h⟩ | ⟨-, hfull, -⟩
  · simp [hpending] at hidle
  · simp [hpending] at hidle
  · exact h
  · omega

/-- R80 with a full buffer: the symbol is dropped, and both timeouts restart all the same. -/
theorem rxSignal_of_full {s : State} (hpending : s.accumulating = true) (hfull : s.cfg.morseCap ≤ s.bufLen)
    (y : DotDash) : s.rxSignal y = { s with lastSignal := s.now, inWord := true, spaceEmitted := false } := by
  rcases rxSignal_cases s y with ⟨hidle, -⟩ | ⟨hidle, -⟩ | ⟨-, hroom, -⟩ | ⟨-, -, h⟩
  · simp [hpending] at hidle
  · simp [hpending] at hidle
  · omega
  · exact h

/-- Settles O1: either byte is RX_SIGNAL of its symbol, with a branch of R80 for each clause. -/
theorem signalByteAppendsSymbol : Obligations.SignalByteAppendsSymbol := by
  unfold Obligations.SignalByteAppendsSymbol
  intro i b y s hbyte hlegal
  have hsignal : decodeByte b = i ∧ exec i s = .next (s.rxSignal y) := by
    rcases hbyte with ⟨rfl, rfl, rfl⟩ | ⟨rfl, rfl, rfl⟩ <;> exact ⟨rfl, exec_of_legal hlegal _⟩
  obtain ⟨hdecode, hexec⟩ := hsignal
  rw [hexec]
  exact ⟨hdecode, fun hidle => congrArg _ (rxSignal_of_idle hlegal hidle y),
    fun hpending hroom => congrArg _ (rxSignal_of_room hpending hroom y),
    fun hpending hfull => congrArg _ (rxSignal_of_full hpending hfull y)⟩

/-! ### The end of a character -/

theorem rxCharEnd_of_pending {s : State} (hlen : 0 < s.bufLen) (hpending : s.accumulating = true) :
    s.rxCharEnd = s.decodeAndClear :=
  if_pos ⟨hlen, hpending⟩

theorem rxCharEnd_of_not_pending {s : State} (h : s.bufLen = 0 ∨ s.accumulating = false) : s.rxCharEnd = s := by
  rcases rxCharEnd_cases s with ⟨hlen, hpending, -⟩ | ⟨-, hsame⟩
  · simp [hlen.ne', hpending] at h
  · exact hsame

/-- Settles O2: the three bytes are the one operation RX_CHAR_END (R82). -/
theorem charEndDecodesPendingCharacter : Obligations.CharEndDecodesPendingCharacter := by
  unfold Obligations.CharEndDecodesPendingCharacter
  intro i b s hbyte hlegal
  have hend : decodeByte b = i ∧ exec i s = .next s.rxCharEnd := by
    rcases hbyte with ⟨rfl, rfl⟩ | ⟨rfl, rfl⟩ | ⟨rfl, rfl⟩ <;> exact ⟨rfl, exec_of_legal hlegal _⟩
  obtain ⟨hdecode, hexec⟩ := hend
  rw [hexec]
  exact ⟨hdecode, decodeByte_of_unlisted (by decide),
    fun hlen hpending => congrArg _ (rxCharEnd_of_pending hlen hpending),
    fun hnone => congrArg _ (rxCharEnd_of_not_pending hnone)⟩

/-! ### The end of a word -/

theorem rxWordEnd_of_inWord {s : State} (hword : s.inWord = true) (hunspaced : s.spaceEmitted = false) :
    s.rxWordEnd = s.emitSpace :=
  if_pos ⟨hword, hunspaced⟩

theorem rxWordEnd_of_no_word {s : State} (h : s.inWord = false ∨ s.spaceEmitted = true) : s.rxWordEnd = s := by
  rcases rxWordEnd_cases s with ⟨hword, hunspaced, -⟩ | ⟨-, hsame⟩
  · simp [hword, hunspaced] at h
  · exact hsame

/-- Settles O3: both bytes are the one operation RX_WORD_END. -/
theorem wordEndEmitsSpaceInsideWord : Obligations.WordEndEmitsSpaceInsideWord := by
  unfold Obligations.WordEndEmitsSpaceInsideWord
  intro i b s hbyte hlegal
  have hend : decodeByte b = i ∧ exec i s = .next s.rxWordEnd := by
    rcases hbyte with ⟨rfl, rfl⟩ | ⟨rfl, rfl⟩ <;> exact ⟨rfl, exec_of_legal hlegal _⟩
  obtain ⟨hdecode, hexec⟩ := hend
  rw [hexec]
  exact ⟨hdecode, fun hword hunspaced => congrArg _ (rxWordEnd_of_inWord hword hunspaced),
    fun hnone => congrArg _ (rxWordEnd_of_no_word hnone)⟩

theorem effect_rxSoftWordFlush_of_unspaced {s : State} (h : s.spaceEmitted = false) :
    effect .rxSoftWordFlush s = s.emitSpace :=
  if_neg (Bool.eq_false_iff.mp h)

theorem effect_rxSoftWordFlush_of_spaced {s : State} (h : s.spaceEmitted = true) : effect .rxSoftWordFlush s = s :=
  if_pos h

/-- Settles O4: `space_emitted` alone selects the branch of R84. -/
theorem softWordFlushNeedsNoWord : Obligations.SoftWordFlushNeedsNoWord := by
  unfold Obligations.SoftWordFlushNeedsNoWord
  intro s hlegal
  rw [exec_of_legal hlegal]
  exact ⟨rfl, decodeByte_of_unlisted (by decide),
    fun hunspaced => congrArg _ (effect_rxSoftWordFlush_of_unspaced hunspaced),
    fun hspaced => congrArg _ (effect_rxSoftWordFlush_of_spaced hspaced)⟩

/-- Settles O5: RX_IGNORE is well-formed of exactly the unlisted bytes, and its effect is the state itself. -/
theorem unlistedByteChangesNothing : Obligations.UnlistedByteChangesNothing := by
  unfold Obligations.UnlistedByteChangesNothing
  intro b s hunlisted hlegal
  have hdecode := decodeByte_of_unlisted hunlisted
  obtain ⟨-, hwellFormed⟩ := decodeByte_encodes s.cfg b
  exact ⟨hdecode, hdecode ▸ hwellFormed, exec_of_legal hlegal (.rxIgnore b)⟩

/-! ### The timeouts -/

/-- The guard of R78, strict as R100 says. -/
theorem charTimeoutDue_iff {s : State} : s.charTimeoutDue = true ↔
    s.accumulating = true ∧ zextTW s.cfg s.cfg.interCharGapMs < elapsedMs s.cfg s.now s.lastSignal := by
  rw [State.charTimeoutDue, Bool.and_eq_true, decide_eq_true_eq]

/-- The guard of R79, strict as R100 says. -/
theorem wordTimeoutDue_iff {s : State} : s.wordTimeoutDue = true ↔
    s.inWord = true ∧ s.spaceEmitted = false ∧
      zextTW s.cfg s.cfg.wordGapMs < elapsedMs s.cfg s.now s.lastSignal := by
  rw [State.wordTimeoutDue, Bool.and_eq_true, Bool.and_eq_true, decide_eq_true_eq, Bool.not_eq_true', and_assoc]

theorem effect_charTimeout_of_due {s : State} (h : s.charTimeoutDue = true) :
    effect .charTimeout s = s.decodeAndClear :=
  if_pos h

theorem effect_charTimeout_of_not_due {s : State} (h : ¬ s.charTimeoutDue = true) : effect .charTimeout s = s :=
  if_neg h

theorem effect_wordTimeout_of_due {s : State} (h : s.wordTimeoutDue = true) : effect .wordTimeout s = s.emitSpace :=
  if_pos h

theorem effect_wordTimeout_of_not_due {s : State} (h : ¬ s.wordTimeoutDue = true) : effect .wordTimeout s = s :=
  if_neg h

/-- Settles O8: the second clause is the negation of the guard of R78. -/
theorem charTimeoutDecodesAfterGap : Obligations.CharTimeoutDecodesAfterGap := by
  unfold Obligations.CharTimeoutDecodesAfterGap
  intro s hlegal
  rw [exec_of_legal hlegal]
  refine ⟨fun hpending hafter => congrArg _ (effect_charTimeout_of_due (charTimeoutDue_iff.mpr ⟨hpending, hafter⟩)),
    fun hnot => congrArg _ (effect_charTimeout_of_not_due fun hdue => ?_)⟩
  obtain ⟨hpending, hafter⟩ := charTimeoutDue_iff.mp hdue
  rcases hnot with hidle | hwithin
  · simp [hpending] at hidle
  · exact absurd hwithin hafter.not_ge

/-- Settles O9: the second clause is the negation of the guard of R79. -/
theorem wordTimeoutEmitsSpaceAfterGap : Obligations.WordTimeoutEmitsSpaceAfterGap := by
  unfold Obligations.WordTimeoutEmitsSpaceAfterGap
  intro s hlegal
  rw [exec_of_legal hlegal]
  refine ⟨fun hword hunspaced hafter =>
      congrArg _ (effect_wordTimeout_of_due (wordTimeoutDue_iff.mpr ⟨hword, hunspaced, hafter⟩)),
    fun hnot => congrArg _ (effect_wordTimeout_of_not_due fun hdue => ?_)⟩
  obtain ⟨hword, hunspaced, hafter⟩ := wordTimeoutDue_iff.mp hdue
  rcases hnot with hnoWord | hspaced | hwithin
  · simp [hword] at hnoWord
  · simp [hunspaced] at hspaced
  · exact absurd hwithin hafter.not_ge

end Sys2Proof.Machine
end

section
/-! LOOKUP (43_rx_framing.md R87): an exact match of the collected symbols with a pattern of the table. -/

namespace Sys2Proof.Machine

theorem lookup_eq_unknown {c : Cfg} {buf : List DotDash} {n : Nat}
    (h : ∀ r ∈ c.decodeTable, ¬ (r.pattern.length = n ∧ buf.take n = r.pattern)) :
    lookup c buf n = (.unknown, c.unknownCode) := by
  rcases lookup_cases c buf n with ⟨r, hr, hlen, hpattern, -⟩ | ⟨-, hunknown⟩
  · exact absurd ⟨hlen, hpattern⟩ (h r hr)
  · exact hunknown

/-- Settles O46: the buffer is the collected symbols and a rest that LOOKUP does not read. -/
theorem lookupIsExactMatch : Obligations.LookupIsExactMatch := by
  unfold Obligations.LookupIsExactMatch
  intro c buf n hlegal hn
  obtain ⟨-, -, -, -, -, -, -, -, -, hdistinct⟩ := Cfg.legal_spec hlegal
  refine ⟨fun r hr hpattern => ?_, fun hnone => lookup_eq_unknown fun r hr ⟨_, htake⟩ => hnone r hr htake.symm⟩
  have hlen : r.pattern.length = n := by rw [hpattern, List.length_take_of_le hn]
  have hbuf : r.pattern ++ buf.drop n = buf := by rw [hpattern, List.take_append_drop]
  simpa only [hbuf, hlen] using lookup_pattern_append hdistinct hr (buf.drop n)

/-- MAXLEN bounds the length of every pattern (R7). -/
theorem Cfg.pattern_length_le_maxLen {c : Cfg} {r : DecodeRow} (hr : r ∈ c.decodeTable) :
    r.pattern.length ≤ c.maxLen :=
  List.le_max_of_le' 0 (List.mem_map_of_mem hr) (Nat.le_refl _)

/-- Settles O49: no pattern is that long. -/
theorem overlongBufferIsUnknown : Obligations.OverlongBufferIsUnknown := by
  unfold Obligations.OverlongBufferIsUnknown
  intro c buf n hlong
  refine lookup_eq_unknown fun r hr ⟨hlen, _⟩ => ?_
  have hmax := Cfg.pattern_length_le_maxLen hr
  omega

end Sys2Proof.Machine
end

section
/-! What the framing controller keeps (43_rx_framing.md R90, R94): a fact about the receive registers that RESET
establishes and its three register updates keep is kept by every step. -/

namespace Sys2Proof.Machine

/-- `I` is a fact about the receive registers that RESET establishes (R104) and the updates of the receive side,
DECODE_AND_CLEAR (R86), EMIT_SPACE (R88) and RX_SIGNAL (R80), keep. -/
structure FramingInvariant (I : State → Prop) : Prop where
  of_sameRx : ∀ {s t : State}, SameRx s t → I t → I s
  resetRegisters : ∀ s : State, I s.resetRegisters
  decodeAndClear : ∀ {s : State}, I s → I s.decodeAndClear
  emitSpace : ∀ {s : State}, I s → I s.emitSpace
  rxSignal : ∀ {s : State} (y : DotDash), s.cfg.legal = true → I s → I (s.rxSignal y)

theorem FramingInvariant.rxNext {I : State → Prop} (hI : FramingInvariant I) {s : State} (hlegal : s.cfg.legal = true)
    (hs : I s) : I s.rxNext := by
  obtain ⟨w, hw, hcommand⟩ := rxNext_cases s
  have hkept : w.cfg = s.cfg ∧ I w := by
    rcases hw with rfl | rfl | rfl | rfl
    · exact ⟨rfl, hs⟩
    · exact ⟨rfl, hI.decodeAndClear hs⟩
    · exact ⟨rfl, hI.emitSpace hs⟩
    · exact ⟨rfl, hI.emitSpace (hI.decodeAndClear hs)⟩
  obtain ⟨hcfg, hwI⟩ := hkept
  rcases hcommand with h | ⟨-, y, h⟩ | ⟨-, -, h⟩ | ⟨-, h⟩ <;> rw [h]
  · exact hwI
  · exact hI.rxSignal y (hcfg ▸ hlegal) hwI
  · exact hI.decodeAndClear hwI
  · exact hI.emitSpace hwI

/-- A reset step establishes `I` and every step keeps it: the transmit side does not touch the receive registers (R39). -/
theorem FramingInvariant.step {I : State → Prop} (hI : FramingInvariant I) {s t : State} (hstep : step s = .next t) :
    (s.nextInputs.rst = true → I t) ∧ (I s → I t) := by
  obtain ⟨hlegal, -⟩ := step_eq_next_iff.mp hstep
  rcases step_cases hstep with ⟨-, rfl⟩ | ⟨hrun, rfl, -, -, -, hsame, -⟩
  · exact ⟨fun _ => hI.resetRegisters s.sample, fun _ => hI.resetRegisters s.sample⟩
  · refine ⟨fun hrst => by simp [hrun] at hrst, fun hs => hI.rxNext (by simpa using hlegal) ?_⟩
    exact hI.of_sameRx hsame hs

/-! ### R90 -/

theorem accumulating_iff_buffered_framing :
    FramingInvariant fun s => s.accumulating = true ↔ 1 ≤ s.bufLen where
  of_sameRx h ht := by rw [h.accumulating, h.bufLen, ht]
  resetRegisters s := by simp
  decodeAndClear _ := by simp
  emitSpace hs := hs
  rxSignal {s} y hlegal hs := by
    cases hacc : s.accumulating
    case false => simp [rxSignal_of_idle hlegal hacc]
    case true =>
      rcases Nat.lt_or_ge s.bufLen s.cfg.morseCap with hroom | hfull
      · simp [rxSignal_of_room hacc hroom, hacc]
      · rw [rxSignal_of_full hacc hfull]
        exact hs

/-- Settles O34: the framing invariant, and R81's test on `accumulating` alone where it holds. -/
theorem accumulatingIffBuffered : Obligations.AccumulatingIffBuffered := by
  unfold Obligations.AccumulatingIffBuffered
  refine ⟨fun s t hstep => accumulating_iff_buffered_framing.step hstep, fun s hlegal hiff hpending => ?_⟩
  have hlen : 0 < s.bufLen := hiff.mp hpending
  rw [exec_of_legal hlegal]
  exact ⟨hlen, congrArg _ (rxCharEnd_of_pending hlen hpending)⟩

/-! ### R94 -/

theorem spaceEmitted_eq_not_inWord_framing : FramingInvariant fun s => s.spaceEmitted = !s.inWord where
  of_sameRx h ht := by rw [h.spaceEmitted, h.inWord, ht]
  resetRegisters _ := rfl
  decodeAndClear hs := hs
  emitSpace _ := rfl
  rxSignal _ _ _ := rfl

/-- R94: W's two tests are O's one. -/
theorem rxWordEnd_eq_effect_rxSoftWordFlush {s : State} (h : s.spaceEmitted = !s.inWord) :
    s.rxWordEnd = effect .rxSoftWordFlush s := by
  cases hword : s.inWord
  case false =>
    have hspaced : s.spaceEmitted = true := by simp [h, hword]
    rw [rxWordEnd_of_no_word (.inl hword), effect_rxSoftWordFlush_of_spaced hspaced]
  case true =>
    have hunspaced : s.spaceEmitted = false := by simp [h, hword]
    rw [rxWordEnd_of_inWord hword hunspaced, effect_rxSoftWordFlush_of_unspaced hunspaced]

/-- Settles O35: the framing invariant, and the three operations compared under R6's guard, which they share. -/
theorem spaceEmittedIsNotInWord : Obligations.SpaceEmittedIsNotInWord := by
  unfold Obligations.SpaceEmittedIsNotInWord
  refine ⟨fun s t hstep => spaceEmitted_eq_not_inWord_framing.step hstep, fun s hs => ?_⟩
  have hsame : s.becomes s.rxWordEnd = s.becomes (effect .rxSoftWordFlush s) :=
    congrArg _ (rxWordEnd_eq_effect_rxSoftWordFlush hs)
  rw [exec_eq .rxSoftWordFlush]
  exact ⟨hsame, hsame, fun hword => by simp [hs, hword]⟩

end Sys2Proof.Machine
end

section
/-! What a step sends on the receive side (43_rx_framing.md R91–R93): at most one character and then at most one space,
and no character twice. -/

namespace Sys2Proof.Machine

/-! ### The character comes before the space -/

/-- R93: a matured word timeout is past the character timeout too, so what the latter leaves is not pending. -/
theorem not_accumulating_of_wordTimeoutDue {s : State} (hlegal : s.cfg.legal = true) (hchar : s.charTimeoutDue = false)
    (hword : s.wordTimeoutDue = true) : s.accumulating = false := by
  obtain ⟨-, -, hafter⟩ := wordTimeoutDue_iff.mp hword
  refine Bool.eq_false_iff.mpr fun hpending => Bool.eq_false_iff.mp hchar ?_
  exact charTimeoutDue_iff.mpr ⟨hpending, interCharGap_of_wordGap hlegal hafter⟩

theorem decodeAndClear_sends_char {s : State} (hempty : s.rxOut = []) : ∃ k b, s.decodeAndClear.rxOut = [.char k b] :=
  ⟨_, _, by rw [State.decodeAndClear_rxOut, hempty, List.nil_append]⟩

/-- What the timeouts send leaves no character pending, and no gap without its space where they sent one. -/
theorem timeouts_send {s w : State} (hlegal : s.cfg.legal = true) (hempty : s.rxOut = [])
    (hw : effect .wordTimeout (effect .charTimeout s) = w) :
    w.rxOut = [] ∨
    (w.accumulating = false ∧ ∃ k b, w.rxOut = [.char k b]) ∨
    (w.accumulating = false ∧ w.spaceEmitted = true ∧ (w.rxOut = [.space] ∨ ∃ k b, w.rxOut = [.char k b, .space])) := by
  subst hw
  rcases timeouts_cases s with h | ⟨-, h⟩ | ⟨hchar, hword, h⟩ | ⟨-, -, h⟩ <;> rw [h]
  · exact .inl hempty
  · exact .inr (.inl ⟨rfl, decodeAndClear_sends_char hempty⟩)
  · have hidle : s.accumulating = false := not_accumulating_of_wordTimeoutDue hlegal hchar hword
    refine .inr (.inr ⟨hidle, rfl, .inl ?_⟩)
    rw [State.emitSpace_rxOut, hempty, List.nil_append]
  · obtain ⟨k, b, hchar⟩ := decodeAndClear_sends_char hempty
    exact .inr (.inr ⟨rfl, rfl, .inr ⟨k, b, by rw [State.emitSpace_rxOut, hchar]; rfl⟩⟩)

/-- The receive outputs of a step that R92 and R93 allow. -/
def CharThenSpace (out : List RxEmit) : Prop :=
  out = [] ∨ (∃ k b, out = [.char k b]) ∨ out = [.space] ∨ ∃ k b, out = [.char k b, .space]

/-- The byte of the step adds a character only while one is pending, hence where the timeouts sent nothing, and a
space only where they sent none. -/
theorem rxNext_charThenSpace {s : State} (hlegal : s.cfg.legal = true) (hempty : s.rxOut = []) :
    CharThenSpace s.rxNext.rxOut := by
  obtain ⟨w, hw⟩ : ∃ w, effect .wordTimeout (effect .charTimeout s) = w := ⟨_, rfl⟩
  have hsent := timeouts_send hlegal hempty hw
  have hkept : CharThenSpace w.rxOut := by
    rcases hsent with h | ⟨-, h⟩ | ⟨-, -, h | h⟩
    · exact .inl h
    · exact .inr (.inl h)
    · exact .inr (.inr (.inl h))
    · exact .inr (.inr (.inr h))
  unfold State.rxNext
  rw [hw]
  rcases rxCommandNext_cases w with h | ⟨-, y, h⟩ | ⟨-, -, hpending, h⟩ | ⟨-, hunspaced, h⟩ <;> rw [h]
  · exact hkept
  · rwa [rxSignal_rxOut]
  · rcases hsent with hnone | ⟨hidle, -⟩ | ⟨hidle, -⟩
    · exact .inr (.inl (decodeAndClear_sends_char hnone))
    all_goals simp [hpending] at hidle
  · rcases hsent with hnone | ⟨-, k, b, hchar⟩ | ⟨-, hspaced, -⟩
    · exact .inr (.inr (.inl (by rw [State.emitSpace_rxOut, hnone, List.nil_append])))
    · exact .inr (.inr (.inr ⟨k, b, by rw [State.emitSpace_rxOut, hchar]; rfl⟩))
    · simp [hunspaced] at hspaced

/-- Settles O51: a reset step sends nothing, and any other starts from an empty output. -/
theorem characterComesBeforeSpace : Obligations.CharacterComesBeforeSpace := by
  unfold Obligations.CharacterComesBeforeSpace
  intro s t hstep
  obtain ⟨hlegal, -⟩ := step_eq_next_iff.mp hstep
  rcases step_cases hstep with ⟨-, rfl⟩ | ⟨-, rfl, -, -, -, -, hempty⟩
  · exact .inl rfl
  · exact rxNext_charThenSpace (by simpa using hlegal) hempty

/-- Settles O52: the four shapes of O51, counted. -/
theorem receiveEmitsAtMostOneOfEach : Obligations.ReceiveEmitsAtMostOneOfEach := by
  unfold Obligations.ReceiveEmitsAtMostOneOfEach
  intro s t hstep
  rcases characterComesBeforeSpace s t hstep with h | ⟨k, b, h⟩ | h | ⟨k, b, h⟩ <;> rw [h] <;>
    simp [RxEmit.isChar, RxEmit.isSpace, List.countP_cons]

/-! ### No character twice

Decoding turns a pending character into an emitted one, so their number stays the same but for a Dot or Dash byte,
which opens a new character and emits none (R80, R86). -/

/-- The characters emitted so far in the step, and the one still pending. -/
def State.charCount (s : State) : Nat := s.rxOut.countP RxEmit.isChar + s.accumulating.toNat

theorem sentChar_iff {s : State} : s.sentChar = true ↔ 0 < s.rxOut.countP RxEmit.isChar := by
  rw [State.sentChar, List.any_eq_true, List.countP_pos_iff]

theorem decodeAndClear_charCount {s : State} (h : s.accumulating = true) : s.decodeAndClear.charCount = s.charCount := by
  simp [State.charCount, h, RxEmit.isChar]

theorem emitSpace_charCount (s : State) : s.emitSpace.charCount = s.charCount := by
  simp [State.charCount, RxEmit.isChar]

theorem timeouts_charCount (s : State) : (effect .wordTimeout (effect .charTimeout s)).charCount = s.charCount := by
  have hdecode (hdue : s.charTimeoutDue = true) : s.decodeAndClear.charCount = s.charCount :=
    decodeAndClear_charCount (charTimeoutDue_iff.mp hdue).1
  rcases timeouts_cases s with h | ⟨hdue, h⟩ | ⟨-, -, h⟩ | ⟨hdue, -, h⟩ <;> rw [h]
  · exact hdecode hdue
  · exact emitSpace_charCount s
  · rw [emitSpace_charCount, hdecode hdue]

theorem rxCommandNext_charCount {s : State} (h : s.gotSignal = false) : s.rxCommandNext.charCount = s.charCount := by
  rcases rxCommandNext_cases s with hs | ⟨hsignal, -⟩ | ⟨-, -, hpending, hs⟩ | ⟨-, -, hs⟩
  · rw [hs]
  · simp [h] at hsignal
  · rw [hs, decodeAndClear_charCount hpending]
  · rw [hs, emitSpace_charCount]

theorem countP_rxOut_rxCommandNext_le (s : State) : s.rxCommandNext.rxOut.countP RxEmit.isChar ≤ s.charCount := by
  cases hsignal : s.gotSignal
  case false =>
    rw [← rxCommandNext_charCount hsignal]
    exact Nat.le_add_right _ _
  case true =>
    rcases rxCommandNext_cases s with hs | ⟨-, y, hs⟩ | ⟨hnone, -⟩ | ⟨hnone, -⟩
    · rw [hs]
      exact Nat.le_add_right _ _
    · rw [hs, rxSignal_rxOut]
      exact Nat.le_add_right _ _
    all_goals simp [hsignal] at hnone

/-- A step emits a character only where one is pending before it; and without a Dot or Dash byte the pending character is
either still pending after it or the one it emitted. -/
theorem step_charCount {s t : State} (hstep : step s = .next t) :
    t.rxOut.countP RxEmit.isChar ≤ s.accumulating.toNat ∧
      (t.gotSignal = false → t.charCount ≤ s.accumulating.toNat) := by
  rcases step_cases hstep with ⟨-, rfl⟩ | ⟨-, rfl, -, -, -, hsame, hempty⟩
  · simp [State.charCount]
  · have hbefore : s.sample.txNext.charCount = s.accumulating.toNat := by
      simp [State.charCount, hempty, hsame.accumulating]
    rw [← hbefore, ← timeouts_charCount]
    refine ⟨countP_rxOut_rxCommandNext_le _, fun hnone => (rxCommandNext_charCount ?_).le⟩
    simpa [State.gotSignal] using hnone

theorem accumulating_of_sentChar {s t : State} (hstep : step s = .next t) (hsent : t.sentChar = true) :
    s.accumulating = true := by
  obtain ⟨hchars, -⟩ := step_charCount hstep
  have hpos := sentChar_iff.mp hsent
  cases hacc : s.accumulating
  case false => simp [hacc, hpos.ne'] at hchars
  case true => rfl

/-- Without a Dot or Dash byte no character is pending after a step that emitted the pending one, or that found none. -/
theorem not_accumulating_of_count_le {s t : State} (hstep : step s = .next t) (hnone : t.gotSignal = false)
    (hcount : s.accumulating.toNat ≤ t.rxOut.countP RxEmit.isChar) : t.accumulating = false := by
  obtain ⟨-, hkept⟩ := step_charCount hstep
  have hle : t.rxOut.countP RxEmit.isChar + t.accumulating.toNat ≤ s.accumulating.toNat := hkept hnone
  cases hacc : t.accumulating
  case false => rfl
  case true =>
    simp only [hacc, Bool.toNat_true] at hle
    omega

/-- Settles O53: the one character of the count is emitted by `t`, so none is pending from there to `u`. -/
theorem noBufferIsDecodedTwice : Obligations.NoBufferIsDecodedTwice := by
  unfold Obligations.NoBufferIsDecodedTwice
  intro s t u v hfirst hsent
  refine ⟨accumulating_of_sentChar hfirst hsent, fun hnone path hnext => ?_⟩
  have hspent : t.accumulating = false := not_accumulating_of_count_le hfirst hnone <| by
    have hpos := sentChar_iff.mp hsent
    have hone := s.accumulating.toNat_le
    omega
  have hstill : u.accumulating = false := path.preserves (I := fun x => x.accumulating = false) (start := hspent)
    fun hidle hstep hnone => not_accumulating_of_count_le hstep hnone (by simp [hidle])
  refine Bool.eq_false_iff.mpr fun hagain => ?_
  simp [accumulating_of_sentChar hnext hagain] at hstill

end Sys2Proof.Machine
end

section
/-! The receive side in a step (43_rx_framing.md R77, R89): its order, and that it reads nothing of the transmit side. -/

namespace Sys2Proof.Machine

/-! ### R77 -/

theorem andThen_assoc (r : Result) (f g : State → Result) :
    andThen (andThen r f) g = andThen r fun t => andThen (f t) g := by
  cases r <;> rfl

theorem andThen_next_right (r : Result) : andThen r .next = r := by
  cases r <;> rfl

/-- The second statement matters only on the state that the first leaves. -/
theorem andThen_congr {r : Result} {f g : State → Result} (h : ∀ t, r = .next t → f t = g t) :
    andThen r f = andThen r g := by
  cases r with
  | next t => exact h t rfl
  | fault => rfl
  | refused => rfl

theorem txStep_inp {s t : State} (h : txStep s = .next t) : t.inp = s.inp := by
  rw [txStep_eq, becomes_eq_next_iff] at h
  obtain ⟨-, rfl⟩ := h
  exact txNext_inp s

theorem exec_inp {i : Instr} {s t : State} (h : exec i s = .next t) : t.inp = s.inp := by
  obtain ⟨-, rfl⟩ := exec_eq_next_iff.mp h
  exact effect_inp i s

/-- R65, R77: a step without reset is the transmit side, the two timeouts and the command, in this order. No operation
writes the sampled ports, so the command is the one that they select. -/
theorem step_of_command {s : State} {command : State → Result} (hrst : s.nextInputs.rst = false)
    (hcommand : ∀ v : State, v.inp = s.nextInputs → rxCommand v = command v) :
    step s = andThen (txStep s.sample) fun t =>
      andThen (exec .charTimeout t) fun u => andThen (exec .wordTimeout u) command := by
  have hrun : step s = andThen (txStep s.sample) rxStep := by simp [step, blockStep, hrst]
  rw [hrun]
  refine andThen_congr fun t ht => ?_
  unfold rxStep
  rw [andThen_assoc]
  refine andThen_congr fun u hu => andThen_congr fun v hv => hcommand v ?_
  calc v.inp = u.inp := exec_inp hv
    _ = t.inp := exec_inp hu
    _ = s.nextInputs := txStep_inp ht

theorem rxCommand_of_byte {s : State} (hvalid : s.inp.rxValid = true) :
    rxCommand s = exec (decodeByte s.inp.rxByte) s := if_pos hvalid

theorem rxCommand_of_no_byte {s : State} (hvalid : s.inp.rxValid = false) : rxCommand s = .next s :=
  if_neg (Bool.eq_false_iff.mp hvalid)

/-- Settles O25: the byte that encodes an operation decodes to it (R42), so it is the command of the step. -/
theorem stepRunsTheDecodedCommand : Obligations.StepRunsTheDecodedCommand := by
  unfold Obligations.StepRunsTheDecodedCommand
  intro s hrst
  refine ⟨fun i hwellFormed hvalid hencode => step_of_command hrst fun v hv => ?_, fun hnone => ?_⟩
  · have hdecode : decodeByte v.inp.rxByte = i := by
      rw [hv]
      exact decodeByte_of_encode i s.cfg _ hwellFormed hencode
    rw [rxCommand_of_byte (hv ▸ hvalid), hdecode]
  · simpa only [andThen_next_right] using
      step_of_command hrst fun v hv => rxCommand_of_no_byte (s := v) (hv ▸ hnone)

/-! ### R89 -/

theorem sample_sameRx (s : State) : SameRx s.sample s := ⟨rfl, rfl, rfl, rfl, rfl, rfl, rfl⟩

theorem eraseTx_eraseTx (s : State) : s.eraseTx.eraseTx = s.eraseTx := rfl

/-- What the receive side sees after a step is fixed by what it sees of the sampled state, in a reset step too (R104). -/
theorem blockNext_eraseTx (s : State) : s.eraseTx.blockNext.eraseTx = s.blockNext.eraseTx := by
  have hrst : s.eraseTx.inp.rst = s.inp.rst := rfl
  have hsides (u : State) : u.txNext.rxNext.eraseTx = u.eraseTx.rxNext := by rw [← rxNext_eraseTx, eraseTx_txNext]
  unfold State.blockNext
  rw [hrst]
  split
  · rfl
  · rw [hsides, hsides, eraseTx_eraseTx]

/-- Settles O56: the two sampled states look the same to the receive side, hence so do the states after the step. -/
theorem receiveSideIgnoresTransmitSide : Obligations.ReceiveSideIgnoresTransmitSide := by
  unfold Obligations.ReceiveSideIgnoresTransmitSide
  intro s t s' t' hregs hports hs ht
  obtain ⟨-, rfl⟩ := step_eq_next_iff.mp hs
  obtain ⟨-, rfl⟩ := step_eq_next_iff.mp ht
  have hsampled : s.sample.eraseTx = t.sample.eraseTx :=
    eraseTx_eq_iff.mpr ⟨((sample_sameRx s).trans hregs).trans (sample_sameRx t).symm, hports, rfl⟩
  have hafter : s.sample.blockNext.eraseTx = t.sample.blockNext.eraseTx := by
    rw [← blockNext_eraseTx s.sample, hsampled, blockNext_eraseTx]
  obtain ⟨hregs', -, hout⟩ := eraseTx_eq_iff.mp hafter
  exact ⟨hregs', hout⟩

end Sys2Proof.Machine
end

section
/-! Exceptions (60_exceptions.md R95): there are none. A legal configuration, written out as R5, R6 and R90 have it, is the
model's own guard `Cfg.legal`, and under that guard every step answers its next state. -/

namespace Sys2Proof.Machine

/-- MAXLEN is the least bound of the pattern lengths (R7). -/
theorem Cfg.maxLen_le_of_forall {c : Cfg} {n : Nat} (h : ∀ r ∈ c.decodeTable, r.pattern.length ≤ n) : c.maxLen ≤ n :=
  List.max_le_of_forall_le _ n (List.forall_mem_map.mpr h)

/-- R90's MAXLEN ≥ 1 (log entry 6): a table with a row has a non-empty pattern, which MAXLEN bounds. -/
theorem Cfg.one_le_maxLen {c : Cfg} (hrow : c.decodeTable ≠ []) (hpattern : ∀ r ∈ c.decodeTable, r.pattern ≠ []) :
    1 ≤ c.maxLen := by
  obtain ⟨r, hr⟩ := List.exists_mem_of_ne_nil _ hrow
  calc 1 ≤ r.pattern.length := List.length_pos_iff.mpr (hpattern r hr)
    _ ≤ c.maxLen := Cfg.pattern_length_le_maxLen hr

/-- R6's two clauses about the patterns, MORSE_CAP ≥ MAXLEN among them, follow from each pattern's own length. -/
theorem Cfg.patternsFit_of_patterns {c : Cfg} (hrow : c.decodeTable ≠ [])
    (hpatterns : ∀ r ∈ c.decodeTable, r.pattern ≠ [] ∧ r.pattern.length ≤ c.morseCap) : c.patternsFit = true := by
  have hfit (r : DecodeRow) (hr : r ∈ c.decodeTable) : 1 ≤ r.pattern.length ∧ r.pattern.length ≤ c.morseCap :=
    (hpatterns r hr).imp_left List.length_pos_iff.mpr
  have hcap : c.maxLen ≤ c.morseCap := Cfg.maxLen_le_of_forall fun r hr => (hpatterns r hr).2
  have hmax : 1 ≤ c.maxLen := Cfg.one_le_maxLen hrow fun r hr => (hpatterns r hr).1
  simpa only [Cfg.patternsFit, Bool.and_eq_true, decide_eq_true_eq, List.all_eq_true] using ⟨⟨hfit, hcap⟩, hmax⟩

/-- Settles O27: the configuration is legal, and a step under a legal configuration answers its next state whatever the
registers and the inputs are (`step_of_legal`). -/
theorem everyStepCompletes : Obligations.EveryStepCompletes := by
  unfold Obligations.EveryStepCompletes
  intro s hwidth hticks hticksFit hsync hsignal hgap hrow hpatterns hdistinct
  have hranges : s.cfg.rangesOk = true := by simp [Cfg.rangesOk, hwidth, hticks, hticksFit, hsync]
  have hthresholds : s.cfg.thresholdsOk = true := by simp [Cfg.thresholdsOk, hsignal, hgap]
  have hfit : s.cfg.patternsFit = true := Cfg.patternsFit_of_patterns hrow hpatterns
  have hnodup : s.cfg.patternsDistinct = true := decide_eq_true hdistinct
  have hlegal : s.cfg.legal = true := by simp [Cfg.legal, hranges, hthresholds, hfit, hnodup]
  exact ⟨s.sample.blockNext, step_of_legal hlegal⟩

end Sys2Proof.Machine
end

section
/-! The reset step (70_reset_and_hazards.md R104): it answers RESET of the sampled state, of which RESET reads the
configuration and the tick alone. -/

namespace Sys2Proof.Machine

/-- R104: with `rst = 1` neither side runs. -/
theorem reset_blockNext {s : State} (hrst : s.nextInputs.rst = true) : s.sample.blockNext = s.sample.resetRegisters :=
  if_pos hrst

theorem reset_step_eq_next_iff {s t : State} (hrst : s.nextInputs.rst = true) :
    step s = .next t ↔ s.cfg.legal = true ∧ s.sample.resetRegisters = t := by
  rw [step_eq_next_iff, reset_blockNext hrst]

/-- The tick of the step reaches one register, `deb_last` (R17). -/
theorem resetRegisters_sameTx {s t : State} (hcfg : s.cfg = t.cfg) (hnow : s.now = t.now) :
    SameTx s.resetRegisters t.resetRegisters :=
  ⟨hcfg, rfl, hnow, rfl, rfl, rfl, rfl, rfl, rfl, rfl⟩

theorem resetRegisters_sameRx {s t : State} (hcfg : s.cfg = t.cfg) : SameRx s.resetRegisters t.resetRegisters :=
  ⟨hcfg, rfl, rfl, rfl, rfl, rfl, by simp [hcfg]⟩

theorem sample_now (s : State) : s.sample.now = s.nextInputs.tickNow % 2 ^ s.cfg.tickWidth := rfl

/-- Settles O10: the reset values of R16–R31 are those that `State.resetRegisters` writes, for the operation and for the
step. -/
theorem resetWritesEveryRegister : Obligations.ResetWritesEveryRegister := by
  unfold Obligations.ResetWritesEveryRegister
  intro s hlegal
  exact ⟨exec_of_legal hlegal .reset, fun hrst => (reset_step_eq_next_iff hrst).mpr ⟨hlegal, rfl⟩⟩

/-- Settles O11: both steps leave RESET of their sampled state, and the two sampled states agree on the configuration and
on `now`. -/
theorem resetStepIgnoresStateAndInputs : Obligations.ResetStepIgnoresStateAndInputs := by
  unfold Obligations.ResetStepIgnoresStateAndInputs
  intro s t s' t' hcfg hrsts hrstt htick hs ht
  obtain ⟨-, rfl⟩ := (reset_step_eq_next_iff hrsts).mp hs
  obtain ⟨-, rfl⟩ := (reset_step_eq_next_iff hrstt).mp ht
  have hnow : s.sample.now = t.sample.now := by rw [sample_now, sample_now, htick, hcfg]
  exact ⟨resetRegisters_sameTx hcfg hnow, resetRegisters_sameRx hcfg, rfl, rfl, rfl, sample_now s⟩

/-- Settles O32: RESET establishes the invariant from any state under a legal configuration. -/
theorem resetStepEstablishesInv : Obligations.ResetStepEstablishesInv := by
  unfold Obligations.ResetStepEstablishesInv
  intro s t hrst hstep
  obtain ⟨hlegal, rfl⟩ := (reset_step_eq_next_iff hrst).mp hstep
  exact resetRegisters_inv hlegal

end Sys2Proof.Machine
end

section
/-! True time and the counter (70_reset_and_hazards.md R110): an interval below 2^TW ticks is measured as it is, also across
a wrap, so a tick that goes back by `k` is measured as 2^TW - k ticks forward. -/

namespace Sys2Proof.Machine

theorem ofNat_mod_two_pow (w n : Nat) : BitVec.ofNat w (n % 2 ^ w) = BitVec.ofNat w n :=
  BitVec.eq_of_toNat_eq (by simp)

/-- Subtraction modulo 2^TW takes the earlier time off the later one, whatever multiple of 2^TW either has lost. -/
theorem ofNat_sub_ofNat_of_le (w : Nat) {t0 t1 : Nat} (h : t0 ≤ t1) :
    BitVec.ofNat w t1 - BitVec.ofNat w t0 = BitVec.ofNat w (t1 - t0) :=
  calc BitVec.ofNat w t1 - BitVec.ofNat w t0
      = (BitVec.ofNat w (t1 - t0) + BitVec.ofNat w t0) - BitVec.ofNat w t0 := by
        rw [← BitVec.ofNat_add, Nat.sub_add_cancel h]
    _ = BitVec.ofNat w (t1 - t0) := BitVec.add_sub_cancel _ _

theorem elapsedMs_of_true_times (c : Cfg) {t0 t1 : Nat} (hle : t0 ≤ t1) (hwrap : t1 - t0 < 2 ^ c.tickWidth) :
    elapsedMs c (t1 % 2 ^ c.tickWidth) (t0 % 2 ^ c.tickWidth) = (t1 - t0) / c.ticksPerMs := by
  unfold elapsedMs
  rw [ofNat_mod_two_pow, ofNat_mod_two_pow, ofNat_sub_ofNat_of_le _ hle,
    BitVec.toNat_ofNat, Nat.mod_eq_of_lt hwrap]

/-- Settles O59. -/
theorem elapsedIsTrueAcrossOneWrap : Obligations.ElapsedIsTrueAcrossOneWrap := by
  unfold Obligations.ElapsedIsTrueAcrossOneWrap
  intro c t0 t1 _ hle hwrap
  exact elapsedMs_of_true_times c hle hwrap

/-- The counter cannot tell a tick that goes back from one that has wrapped (R110). -/
theorem elapsedMs_of_backwards (c : Cfg) {now since k : Nat} (hsince : since < 2 ^ c.tickWidth) (hk : 0 < k)
    (hback : now + k = since) : elapsedMs c now since = (2 ^ c.tickWidth - k) / c.ticksPerMs := by
  have htrue := elapsedMs_of_true_times c (t0 := since) (t1 := now + 2 ^ c.tickWidth) (by omega) (by omega)
  have hspan : now + 2 ^ c.tickWidth - since = 2 ^ c.tickWidth - k := by omega
  rwa [Nat.add_mod_right, Nat.mod_eq_of_lt (by omega : now < 2 ^ c.tickWidth), Nat.mod_eq_of_lt hsince, hspan] at htrue

theorem rxCommandNext_of_no_byte {s : State} (hnone : s.inp.rxValid = false) : s.rxCommandNext = s :=
  if_neg (Bool.eq_false_iff.mp hnone)

/-- Settles O54: the measured time is past WORD_GAP_MS, hence past INTER_CHAR_GAP_MS too (R93), and decoding leaves the
guard of the word timeout as it is. -/
theorem backwardsTickMaturesBothTimeouts : Obligations.BackwardsTickMaturesBothTimeouts := by
  unfold Obligations.BackwardsTickMaturesBothTimeouts
  intro s k hlegal hlast hk hback hlong hpending hword hunspaced hnone
  have helapsed : zextTW s.cfg s.cfg.wordGapMs < elapsedMs s.cfg s.now s.lastSignal := by
    rw [elapsedMs_of_backwards s.cfg hlast hk hback]
    exact Nat.lt_of_le_of_lt (Nat.min_le_left _ _) hlong
  have hchar : s.charTimeoutDue = true := charTimeoutDue_iff.mpr ⟨hpending, interCharGap_of_wordGap hlegal helapsed⟩
  have hspace : s.decodeAndClear.wordTimeoutDue = true := wordTimeoutDue_iff.mpr ⟨hword, hunspaced, helapsed⟩
  have hnext : s.rxNext = s.decodeAndClear.emitSpace := by
    rw [State.rxNext, effect_charTimeout_of_due hchar, effect_wordTimeout_of_due hspace]
    exact rxCommandNext_of_no_byte hnone
  rw [rxStep_eq, becomes_of_legal hlegal, hnext]
  simp [State.emitSpace, State.decodeAndClear, State.emitRx]

end Sys2Proof.Machine
end

section
/-! The preamble (70_reset_and_hazards.md R105, 42_symbol_detector.md R66, R67): a step that is not held sends the symbol at
`sync_idx` and nothing else, a held step sends nothing, and `sync_idx` counts the former. -/

namespace Sys2Proof.Machine

/-- The steps that are not held (R66). -/
def freeSteps (xs : List State) : Nat := xs.countP fun x => !x.inp.toneBusy

theorem freeSteps_cons_of_busy {t : State} (h : t.inp.toneBusy = true) (xs : List State) :
    freeSteps (t :: xs) = freeSteps xs := by
  simp [freeSteps, h]

theorem freeSteps_cons_of_free {t : State} (h : t.inp.toneBusy = false) (xs : List State) :
    freeSteps (t :: xs) = freeSteps xs + 1 := by
  simp [freeSteps, h]

theorem trace_succ {s t : State} (hstep : step s = .next t) (n : Nat) : trace (n + 1) s = t :: trace n t := by
  simp only [trace, hstep]

/-- A symbol on the ports is one serial byte, and neither an event nor a gap marker (R68). -/
theorem txBytes_of_symbol {s : State} {c : Cfg} {y : DotDash} (h : s.txOut = symbolOut c y) : s.txBytes = [byteOf y] := by
  rw [State.txBytes, h]
  rfl

theorem symbolOut_no_event_or_marker {c : Cfg} {y : DotDash} {e : TxEmit} (he : e ∈ symbolOut c y) :
    e.isEvt = false ∧ e.isGap = false := by
  simp only [symbolOut, List.mem_cons, List.not_mem_nil, or_false] at he
  rcases he with rfl | rfl <;> exact ⟨rfl, rfl⟩

/-- R67 over a whole step. -/
theorem preamble_step {s t : State} (hstep : step s = .next t) (hfree : t.inp.toneBusy = false)
    (hrst : t.inp.rst = false) (hleft : s.syncIdx < s.cfg.syncPattern.length) :
    t.syncIdx = s.syncIdx + 1 ∧ t.txOut = symbolOut s.cfg s.cfg.syncPattern[s.syncIdx] := by
  obtain ⟨-, hinp, -⟩ := step_environment hstep
  rw [hinp] at hfree hrst
  rcases step_cases hstep with ⟨hreset, -⟩ | ⟨-, -, hsame, hout, -⟩
  · simp [hrst] at hreset
  rw [hsame.syncIdx, hout]
  rcases txNext_cases s.sample with ⟨hbusy, -⟩ | ⟨-, -, y, hy, h⟩ | ⟨-, hover, -⟩
  · simp [hfree] at hbusy
  · obtain ⟨_, hget⟩ := List.getElem?_eq_some_iff.mp hy
    rw [h, ← hget]
    exact ⟨rfl, rfl⟩
  · exact absurd hleft (Nat.not_lt.mpr hover)

/-- From any `sync_idx` on: while the pattern has a symbol for each free step, the free steps send its symbols in order.
Past the end of the pattern only held steps are left, so no sample is taken. -/
theorem trace_sends_syncPattern (n : Nat) {s : State} (hlegal : s.cfg.legal = true)
    (hrun : ∀ x ∈ trace n s, x.inp.rst = false) (hroom : s.syncIdx + freeSteps (trace n s) ≤ s.cfg.syncLen) :
    (trace n s).flatMap State.txBytes =
      ((s.cfg.syncPattern.drop s.syncIdx).take (freeSteps (trace n s))).map byteOf ∧
    ∀ x ∈ trace n s, ∀ e ∈ x.txOut, e.isEvt = false ∧ e.isGap = false := by
  induction n generalizing s with
  | zero => simp [trace, freeSteps]
  | succ n ih =>
    obtain ⟨t, hstep⟩ : ∃ t, step s = .next t := ⟨_, step_of_legal hlegal⟩
    obtain ⟨hcfg, -⟩ := step_environment hstep
    rw [trace_succ hstep] at hrun hroom ⊢
    obtain ⟨hrst, hrest⟩ := List.forall_mem_cons.mp hrun
    cases hbusy : t.inp.toneBusy
    case true =>
      obtain ⟨hsame, hout, -⟩ := held_step hstep hbusy hrst
      rw [freeSteps_cons_of_busy hbusy] at hroom ⊢
      obtain ⟨hbytes, hsilent⟩ := ih (hcfg ▸ hlegal) hrest (by rwa [hsame.syncIdx, hcfg])
      rw [hsame.syncIdx, hcfg] at hbytes
      refine ⟨?_, List.forall_mem_cons.mpr ⟨by simp [hout], hsilent⟩⟩
      rw [List.flatMap_cons, hbytes, State.txBytes, hout]
      rfl
    case false =>
      rw [freeSteps_cons_of_free hbusy] at hroom ⊢
      have hleft : s.syncIdx < s.cfg.syncPattern.length := by
        rw [Cfg.syncLen] at hroom
        omega
      obtain ⟨hidx, hout⟩ := preamble_step hstep hbusy hrst hleft
      obtain ⟨hbytes, hsilent⟩ := ih (hcfg ▸ hlegal) hrest (by rw [hidx, hcfg]; omega)
      rw [hidx, hcfg] at hbytes
      refine ⟨?_, List.forall_mem_cons.mpr ⟨fun e he => symbolOut_no_event_or_marker (hout ▸ he), hsilent⟩⟩
      rw [List.flatMap_cons, hbytes, txBytes_of_symbol hout, List.drop_eq_getElem_cons hleft, List.take_succ_cons]
      rfl

/-- Settles O44: a reset step leaves `sync_idx` 0. -/
theorem preambleSendsTheSyncPattern : Obligations.PreambleSendsTheSyncPattern := by
  unfold Obligations.PreambleSendsTheSyncPattern
  intro s t n hrst hstep hrun hcount
  obtain ⟨hlegal, rfl⟩ := (reset_step_eq_next_iff hrst).mp hstep
  have hroom : 0 + freeSteps (trace n s.sample.resetRegisters) ≤ s.cfg.syncLen := (Nat.zero_add _).trans_le hcount
  exact trace_sends_syncPattern n hlegal hrun hroom

end Sys2Proof.Machine
end

section
/-! The model's own reset state (10_state.md §6): it is RESET of itself at tick 0, so what is known of RESET of any state is
known of it. -/

namespace Sys2Proof.Machine

/-- R6: the defaults of R5 and of the tables satisfy every condition on CFG. -/
theorem defaultCfg_legal : defaultCfg.legal = true := by decide

/-- `State.resetRegisters` writes every register and drives no output, so of a state it keeps the configuration and the
ports alone. -/
theorem resetRegisters_congr {s t : State} (hcfg : s.cfg = t.cfg) (hinp : s.inp = t.inp) (hscript : s.script = t.script) :
    s.resetRegisters = t.resetRegisters := by
  simp only [State.resetRegisters, State.now, hcfg, hinp, hscript]

/-- The values written out in `State.reset` are those that RESET writes at tick 0 under the defaults. -/
theorem resetRegisters_reset : State.reset.resetRegisters = State.reset := rfl

/-- Settles O12: a state that agrees with `State.reset` on the configuration and the ports has the RESET of
`State.reset`. -/
theorem resetStateIsTheReset : Obligations.ResetStateIsTheReset := by
  unfold Obligations.ResetStateIsTheReset
  intro s hcfg hinp hscript
  have hlegal : s.cfg.legal = true := by
    rw [hcfg]
    exact defaultCfg_legal
  have heffect : s.resetRegisters = State.reset := (resetRegisters_congr hcfg hinp hscript).trans resetRegisters_reset
  exact exec_eq_next_iff.mpr ⟨hlegal, heffect⟩

/-- Settles O31: RESET establishes the invariant from any state under a legal configuration, and `State.reset` is a
RESET. -/
theorem resetStateHasInv : Obligations.ResetStateHasInv := by
  unfold Obligations.ResetStateHasInv
  rw [← resetRegisters_reset]
  exact resetRegisters_inv defaultCfg_legal

end Sys2Proof.Machine
end
